-- ==== Sys2Proof/Word.lean ====
section
/-! DEFINITION. The value types of the AES-128 core: bytes, register words, AES words and the 4x4 state
(00_scope.md R8, R10). Types only; every function on them stands in Sys2Proof/Machine/. -/

namespace Sys2Proof

/-- A byte, 8 bits (R8). -/
abbrev Byte := BitVec 8

/-- A register word, 32 bits (R8). -/
abbrev Word := BitVec 32

/-- An AES word, the sequence of bytes `[a0, a1, a2, a3]` (R10). -/
@[ext]
structure AesWord where
  b0 : Byte
  b1 : Byte
  b2 : Byte
  b3 : Byte
  deriving DecidableEq, Repr, Inhabited

/-- The state of the cipher, a 4x4 byte matrix held by its columns: `s[r][c]` is byte `r` of column `c`
(R10, 43_round_ops.md R170). -/
@[ext]
structure AesState where
  c0 : AesWord
  c1 : AesWord
  c2 : AesWord
  c3 : AesWord
  deriving DecidableEq, Repr, Inhabited

end Sys2Proof
end

