-- ==== Sys2Proof/Syntax.lean ====
section
/-! DEFINITION. The commands of the block, one constructor per row of spec/opcode_table.json
(30_encoding.md R93). -/

namespace Sys2Proof

/-- A command. The only operand in a command word is RND of ADD_ROUND_KEY (R91); every other command reads fixed
registers. -/
inductive Instr where
  | gfAdd
  | gfSub
  | gfMult
  | coefAdd
  | coefMult
  | sboxLookup
  | invSboxLookup
  | keyExpand
  | subBytes
  | shiftRows
  | mixColumns
  | addRoundKey (rnd : BitVec 4)
  | invSubBytes
  | invShiftRows
  | invMixColumns
  | encryptBlock
  | decryptBlock
  | ecbEncrypt
  | ecbDecrypt
  | ecbDecryptRaw
  deriving DecidableEq, Repr

end Sys2Proof
end

