-- ==== Sys2Proof/WellFormed.lean ====
section
/-! DEFINITION. Which commands are well formed: the round index of ADD_ROUND_KEY is 0..10
(30_encoding.md R91, R92). -/

namespace Sys2Proof

/-- ADD_ROUND_KEY accepts RND in 0..10 (R91); no other command has an operand. -/
def Instr.wf : Instr → Bool
  | .gfAdd | .gfSub | .gfMult | .coefAdd | .coefMult => true
  | .sboxLookup | .invSboxLookup | .keyExpand => true
  | .subBytes | .shiftRows | .mixColumns => true
  | .addRoundKey rnd => decide (rnd.toNat ≤ 10)
  | .invSubBytes | .invShiftRows | .invMixColumns => true
  | .encryptBlock | .decryptBlock => true
  | .ecbEncrypt | .ecbDecrypt | .ecbDecryptRaw => true

end Sys2Proof
end

