-- ==== Sys2Proof/Decode.lean ====
section
/-! DEFINITION. Decoding and encoding of command words (30_encoding.md R90 to R95): total on every 32-bit word,
rejecting by name, and reading nothing but the word (R92). -/

namespace Sys2Proof

/-- OP, bits 7:0 (R90). -/
def opField (c : Word) : Byte := c.extractLsb' 0 8

/-- RND, bits 11:8 (R90). -/
def rndField (c : Word) : BitVec 4 := c.extractLsb' 8 4

/-- RSV, bits 31:12 (R90). -/
def rsvField (c : Word) : BitVec 20 := c.extractLsb' 12 20

/-- Why a word is not a valid command: the three conditions of R92. -/
inductive Illegal where
  /-- OP is none of the 20 opcodes of R93. -/
  | unknownOpcode
  /-- RSV is not 0. -/
  | reservedNotZero
  /-- RND is over 10 for ADD_ROUND_KEY, or not 0 for another opcode. -/
  | badRound
  deriving DecidableEq, Repr

/-- The opcode map (R93). -/
def instrOfOp (op : Byte) (rnd : BitVec 4) : Option Instr :=
  match op with
  | 0x10#8 => some .gfAdd
  | 0x11#8 => some .gfSub
  | 0x12#8 => some .gfMult
  | 0x13#8 => some .coefAdd
  | 0x14#8 => some .coefMult
  | 0x20#8 => some .sboxLookup
  | 0x21#8 => some .invSboxLookup
  | 0x30#8 => some .keyExpand
  | 0x40#8 => some .subBytes
  | 0x41#8 => some .shiftRows
  | 0x42#8 => some .mixColumns
  | 0x43#8 => some (.addRoundKey rnd)
  | 0x44#8 => some .invSubBytes
  | 0x45#8 => some .invShiftRows
  | 0x46#8 => some .invMixColumns
  | 0x50#8 => some .encryptBlock
  | 0x51#8 => some .decryptBlock
  | 0x60#8 => some .ecbEncrypt
  | 0x61#8 => some .ecbDecrypt
  | 0x62#8 => some .ecbDecryptRaw
  | _ => none

/-- Condition 3 of R92: RND at most 10 for OP 0x43, RND = 0 for every other OP. -/
def rndLegal (op : Byte) (rnd : BitVec 4) : Bool :=
  if op = 0x43#8 then decide (rnd.toNat ≤ 10) else decide (rnd = 0#4)

/-- The decoder (R92, R94): the command a word stands for, or the condition of R92 it breaks. -/
def decode (c : Word) : Except Illegal Instr :=
  match instrOfOp (opField c) (rndField c) with
  | none => .error .unknownOpcode
  | some i =>
    if rsvField c ≠ 0#20 then .error .reservedNotZero
    else if rndLegal (opField c) (rndField c) then .ok i
    else .error .badRound

/-- A valid command word (R92). -/
def validCommand (c : Word) : Bool :=
  match decode c with
  | .ok _ => true
  | .error _ => false

/-- The opcode of a command (R93). -/
def opcodeOf : Instr → Byte
  | .gfAdd => 0x10#8
  | .gfSub => 0x11#8
  | .gfMult => 0x12#8
  | .coefAdd => 0x13#8
  | .coefMult => 0x14#8
  | .sboxLookup => 0x20#8
  | .invSboxLookup => 0x21#8
  | .keyExpand => 0x30#8
  | .subBytes => 0x40#8
  | .shiftRows => 0x41#8
  | .mixColumns => 0x42#8
  | .addRoundKey _ => 0x43#8
  | .invSubBytes => 0x44#8
  | .invShiftRows => 0x45#8
  | .invMixColumns => 0x46#8
  | .encryptBlock => 0x50#8
  | .decryptBlock => 0x51#8
  | .ecbEncrypt => 0x60#8
  | .ecbDecrypt => 0x61#8
  | .ecbDecryptRaw => 0x62#8

/-- The round index of a command, 0 for every command but ADD_ROUND_KEY (R91). -/
def roundOf : Instr → BitVec 4
  | .gfAdd | .gfSub | .gfMult | .coefAdd | .coefMult => 0#4
  | .sboxLookup | .invSboxLookup | .keyExpand => 0#4
  | .subBytes | .shiftRows | .mixColumns => 0#4
  | .addRoundKey rnd => rnd
  | .invSubBytes | .invShiftRows | .invMixColumns => 0#4
  | .encryptBlock | .decryptBlock => 0#4
  | .ecbEncrypt | .ecbDecrypt | .ecbDecryptRaw => 0#4

/-- The command word of a command: RSV = 0, then RND, then OP (R90). -/
def encode (i : Instr) : Word := 0#20 ++ roundOf i ++ opcodeOf i

/-- The command the decoder reads from a table row's bits, every bit from `nbits` up being 0. A command is one
32-bit word (R95), so a row longer than 32 bits is none. -/
def decodeTableWord (nbits w : Nat) : Option Instr :=
  if nbits ≤ 32 then
    match decode (BitVec.ofNat 32 (w % 2 ^ nbits)) with
    | .ok i => some i
    | .error _ => none
  else none

end Sys2Proof
end

