-- ==== Sys2Proof/Config.lean ====
section
/-! DEFINITION. The parameters the spec fixes (00_scope.md R7) and the free values it leaves open
(93_implementation_defined.md U4 to U7). -/

namespace Sys2Proof

/-- Words per block (R7). -/
abbrev Config.nb : Nat := 4

/-- Words per key (R7). -/
abbrev Config.nk : Nat := 4

/-- Rounds (R7). -/
abbrev Config.nr : Nat := 10

/-- Bytes of a block (R7). -/
abbrev Config.blockBytes : Nat := 16

/-- Bytes of a key (R7). -/
abbrev Config.keyBytes : Nat := 16

/-- Words of the expanded key, `Nb * (Nr + 1)` (R2, R7). -/
abbrev Config.schedWords : Nat := 44

/-- Bytes of the expanded key (R7). -/
abbrev Config.schedBytes : Nat := 176

/-- Entries of each substitution table (R7). -/
abbrev Config.sboxEntries : Nat := 256

/-- Bits of a word of the host port (R7, decision D1): the width of `Word`. -/
abbrev Config.dataBits : Nat := 32

/-- Bits of a byte address of the host port (R7, decision D3): the width of a request's address. -/
abbrev Config.addrBits : Nat := 14

/-- Bytes of IN_BUF and of OUT_BUF, each (R7, decision D4). -/
abbrev Config.bufBytes : Nat := 4096

/-- A look-back window of the unpad heuristic: UNPAD_WINDOW, OPEN within 1..16 (R7, U9). -/
abbrev Config.UnpadWindow : Type := { w : Nat // 1 ≤ w ∧ w ≤ 16 }

/-- The value the spec decides for UNPAD_WINDOW, 16 (R7, D13). The machine takes the window as an argument, its field
`State.unpadWindow`; this is what the field holds in `State.reset` (log entry 9). -/
def Config.unpadWindow : Config.UnpadWindow := ⟨16, by decide⟩

/-- The system address of an offset of the map, for a given BASE_ADDR (OPEN, R7, R262): every address of the
model is an offset (log entry 10). -/
def Config.busAddress (baseAddr : Nat) (offset : BitVec 14) : Nat := baseAddr + offset.toNat

/-- FREE VALUE (U4, U5, U6): what the byte at an offset of the map holds after the given reset when nothing has
written it since. No body: nothing can be proved of it (log entries 3, 4, 5). -/
opaque Config.unsetByte : (epoch : Nat) → (offset : Nat) → Byte

/-- FREE VALUE (U5, U7): the word of the given draw at the host port. No body (log entries 6, 7, 8). -/
opaque Config.freeWord : (draw : Nat) → Word

end Sys2Proof
end

