-- ==== Sys2Proof/Machine/State.lean ====
section
/-! DEFINITION. Everything the machine holds (10_state.md), as plain data, the three ways a step can end, and the
state after reset (10_state.md R47, 70_reset_and_hazards.md R280). -/

namespace Sys2Proof.Machine

/-- The completion codes of ERR_CODE (60_exceptions.md R253). Codes 2 and 6..15 are never produced (R39), so they
are no values of the field. -/
inductive ErrCode where
  /-- 0, success. -/
  | ok
  /-- 1, the command word is not valid. -/
  | illegalCmd
  /-- 3, KEY_VALID = 0. -/
  | noKey
  /-- 4, SCHED_VALID = 0. -/
  | noSched
  /-- 5, LEN is 0, over BUF_BYTES or, for a decrypt, no multiple of 16. -/
  | badLen
  deriving DecidableEq, Repr

/-- A request at the host port (20_memory.md R60). The spec gives `size` no width: any number (log entry 14). -/
structure Request where
  we : Bool
  addr : BitVec 14
  size : Nat
  wdata : Word
  deriving DecidableEq, Repr

/-- A response at the host port (R60). -/
structure Response where
  rdata : Word
  err : Bool
  deriving DecidableEq, Repr

/-- One move of the environment's agenda (00_scope.md R15; log entry 1). -/
inductive Event where
  /-- The host makes one access. -/
  | access (r : Request)
  /-- The engine gets its turn. -/
  | engine
  /-- The `rst` input is asserted (R280). -/
  | reset
  deriving DecidableEq, Repr

/-- IN_BUF and OUT_BUF as (offset, byte) pairs, offsets strictly rising; only bytes that were written are listed
(10_state.md R43; log entry 5). -/
abbrev Memory := List Host.Cell

/-- The lowest offset of IN_BUF (R20). -/
abbrev inBufBase : Nat := 0x1000

/-- The lowest offset of OUT_BUF (R20). -/
abbrev outBufBase : Nat := 0x2000

/-- The canonical form of a memory: offsets strictly rising and inside the two buffers. An unlisted offset has no
stored byte, so no entry can equal what an unlisted one reads as. -/
abbrev Memory.wf (m : Memory) : Prop :=
  List.Pairwise (fun c d : Host.Cell => c.1 < d.1) m ∧ ∀ c ∈ m, 0x1000 ≤ c.1 ∧ c.1 < 0x3000

/-- The state of the block, its port and its environment. -/
structure State where
  /-- CMD: the last accepted command word (R30); the pending command while `busy` (R44). -/
  cmd : Word
  /-- STATUS.BUSY (R32). -/
  busy : Bool
  /-- STATUS.DONE (R33). -/
  done : Bool
  /-- STATUS.OVERRUN (R35). -/
  overrun : Bool
  /-- STATUS.SBOX_READY (R36). -/
  sboxReady : Bool
  /-- STATUS.SCHED_VALID (R38). -/
  schedValid : Bool
  /-- STATUS.ERR_CODE (R39). -/
  errCode : ErrCode
  /-- CTRL.IRQ_EN (R41). -/
  irqEn : Bool
  /-- LEN (R28). -/
  len : Word
  /-- OUT_LEN (R29). -/
  outLen : Word
  /-- OPA (R22). -/
  opa : Word
  /-- OPB (R22). -/
  opb : Word
  /-- RES (R23). -/
  res : Word
  /-- KEY0..KEY3 (R24). -/
  key : Vector Word 4
  /-- KWM, the hidden key-write mask (R44). -/
  kwm : BitVec 4
  /-- STATE0..STATE3 (R26). -/
  blk : Vector Word 4
  /-- SCHED0..SCHED43 once written since reset (R27); read through `schedWords`. -/
  sched : Vector Word 44
  /-- SBOX once generated (R42); read through `sboxAt`. -/
  sbox : Vector Byte 256
  /-- INV_SBOX once generated (R42); read through `invSboxAt`. -/
  invSbox : Vector Byte 256
  /-- IN_BUF and OUT_BUF (R43). -/
  mem : Memory
  /-- The port's last response, none before the first (R60). -/
  resp : Option Response
  /-- The MODEL's own: what the environment does next (log entry 1). -/
  agenda : List Event
  /-- The MODEL's own: SCHED was written since reset (log entry 3). -/
  schedWritten : Bool
  /-- The MODEL's own: which reset the unspecified contents come from (log entry 5). -/
  epoch : Nat
  /-- The MODEL's own: the draws taken at the port so far (log entry 6). -/
  draws : Nat
  /-- The MODEL's own: the host made an illegal request (R61; log entry 2). -/
  hostFault : Bool
  /-- The implementation parameter UNPAD_WINDOW (00_scope.md R7), an argument of the whole machine: no step changes it
  (log entry 9). -/
  unpadWindow : Config.UnpadWindow
  deriving DecidableEq, Repr

/-- Why a step stops with a fault: never. Errors of commands are completions (R252), an illegal request gets an
error response (R61), and the block has no stuck state (R266). -/
inductive Fault
  deriving DecidableEq, Repr

/-- Why an instruction has no meaning. -/
inductive Refusal where
  /-- Raised by an arm of `exec` whose instruction has no meaning yet; safe: the machine stops where the hardware
  goes on. No arm raises it. -/
  | notModelled (mnemonic : String)
  deriving DecidableEq, Repr

/-- How a step ends. -/
abbrev Result := Host.Outcome State Fault Refusal

/-- The state after reset (R20, R31, R47, R280, R282). The contents of `sched`, `sbox` and `invSbox` are never read
before they are written (log entries 3, 4). -/
def State.reset : State where
  cmd := 0#32
  busy := false
  done := false
  overrun := false
  sboxReady := false
  schedValid := false
  errCode := .ok
  irqEn := false
  len := 0#32
  outLen := 0#32
  opa := 0#32
  opb := 0#32
  res := 0#32
  key := #v[0#32, 0#32, 0#32, 0#32]
  kwm := 0#4
  blk := #v[0#32, 0#32, 0#32, 0#32]
  sched := Vector.replicate 44 0#32
  sbox := Vector.replicate 256 0#8
  invSbox := Vector.replicate 256 0#8
  mem := []
  resp := none
  agenda := []
  schedWritten := false
  epoch := 0
  draws := 0
  hostFault := false
  unpadWindow := Config.unpadWindow

end Sys2Proof.Machine
end

