-- ==== Sys2Proof/Machine/Ops.lean ====
section
/-! DEFINITION. The shared operations: byte lanes (20_memory.md R62), memory (R43), the schedule and table
accessors (10_state.md R27, R42), and completion with success or with an error (60_exceptions.md R251, R252). -/

namespace Sys2Proof.Machine

/-- Byte lane `j` of a word: bits `[31-8j : 24-8j]` (R62). -/
def laneByte (w : Word) (j : Nat) : Byte := w.extractLsb' (24 - 8 * j) 8

/-- The AES word a register holds (R22, R62). -/
def aesOfWord (w : Word) : AesWord := ⟨laneByte w 0, laneByte w 1, laneByte w 2, laneByte w 3⟩

/-- The register word that holds an AES word, byte 0 in bits 31..24 (R23, R62). -/
def wordOfAes (a : AesWord) : Word := a.b0 ++ a.b1 ++ a.b2 ++ a.b3

/-- Byte `j` of an AES word (R10). -/
def aesByte (a : AesWord) (j : Fin 4) : Byte :=
  match j with
  | 0 => a.b0
  | 1 => a.b1
  | 2 => a.b2
  | 3 => a.b3

/-- The stored byte at an offset, if one was written. -/
def Memory.read? : Memory → Nat → Option Byte
  | [], _ => none
  | (b, v) :: m, a => if a = b then some v else Memory.read? m a

/-- Stores a byte, keeping the canonical form. -/
def Memory.write : Memory → Nat → Byte → Memory
  | [], a, v => [(a, v)]
  | (b, w) :: m, a, v =>
    if a < b then (a, v) :: (b, w) :: m
    else if a = b then (a, v) :: m
    else (b, w) :: Memory.write m a v

/-- Stores bytes at rising offsets. -/
def Memory.writeBytes : Memory → Nat → List Byte → Memory
  | m, _, [] => m
  | m, a, v :: vs => Memory.writeBytes (Memory.write m a v) (a + 1) vs

/-- The byte of IN_BUF or OUT_BUF at an offset: the stored one, or the draw of U6 (log entry 5). -/
def memByte (s : State) (a : Nat) : Byte := (Memory.read? s.mem a).getD (Config.unsetByte s.epoch a)

/-- `n` bytes from an offset on. -/
def memBytes (s : State) (a n : Nat) : List Byte := (List.range n).map fun i => memByte s (a + i)

/-- The word at an offset, first byte in bits 31..24 (R62). -/
def memWord (s : State) (a : Nat) : Word :=
  wordOfAes ⟨memByte s a, memByte s (a + 1), memByte s (a + 2), memByte s (a + 3)⟩

/-- Stores bytes into the buffers' memory. -/
def storeBytes (a : Nat) (vs : List Byte) (s : State) : State :=
  { s with mem := Memory.writeBytes s.mem a vs }

/-- Stores a word into the buffers' memory, bits 31..24 first (R62). -/
def storeWord (a : Nat) (v : Word) (s : State) : State :=
  storeBytes a [laneByte v 0, laneByte v 1, laneByte v 2, laneByte v 3] s

/-- What a word of the map holds after a reset when nothing wrote it: the draws of its bytes (U4; log entry 3). -/
def unsetWord (epoch a : Nat) : Word :=
  wordOfAes ⟨Config.unsetByte epoch a, Config.unsetByte epoch (a + 1), Config.unsetByte epoch (a + 2),
    Config.unsetByte epoch (a + 3)⟩

/-- SCHED0..SCHED43: what was last written, or the draws after reset (R27). -/
def schedWords (s : State) : Vector Word 44 :=
  if s.schedWritten then s.sched else Vector.ofFn fun i => unsetWord s.epoch (0x040 + 4 * i.val)

/-- Writes the schedule and sets SCHED_VALID (R38, R157, R230). -/
def writeSched (w : Vector Word 44) (s : State) : State :=
  { s with sched := w, schedWritten := true, schedValid := true }

/-- `SBOX[x]`: the generated entry, or a draw before generation (R42; log entry 4). -/
def sboxAt (s : State) (x : Byte) : Byte :=
  if s.sboxReady then s.sbox[x.toNat] else Config.unsetByte s.epoch (0x100 + x.toNat)

/-- `INV_SBOX[x]`: the generated entry, or a draw before generation (R42; log entry 4). -/
def invSboxAt (s : State) (x : Byte) : Byte :=
  if s.sboxReady then s.invSbox[x.toNat] else Config.unsetByte s.epoch (0x200 + x.toNat)

/-- The opcodes of the ECB commands, whose errors clear OUT_LEN (R252). -/
def isEcbOp (op : Byte) : Bool := op == 0x60#8 || op == 0x61#8 || op == 0x62#8

/-- What success completion leaves: `BUSY <- 0; DONE <- 1; ERR_CODE <- 0` (R251). -/
def completed (s : State) : State := { s with busy := false, done := true, errCode := .ok }

/-- Success completion, `complete()` (R251). -/
def complete (s : State) : Result := .next (completed s)

/-- What error completion of a command with opcode `op` leaves: `BUSY <- 0; DONE <- 1; ERR_CODE <- code`, and
`OUT_LEN <- 0` for the ECB opcodes (R252). -/
def failed (op : Byte) (code : ErrCode) (s : State) : State :=
  { s with
    busy := false
    done := true
    errCode := code
    outLen := if isEcbOp op then 0#32 else s.outLen }

/-- Error completion, `raise Error(code)` (R252). -/
def raiseError (op : Byte) (code : ErrCode) (s : State) : Result := .next (failed op code s)

/-- The acceptance of a CMD write, which issues the word (30_encoding.md R98). -/
def issue (c : Word) (s : State) : State := { s with cmd := c, busy := true, done := false }

/-- The reset event (70_reset_and_hazards.md R280): every register and field at its reset value, the unspecified
contents drawn anew. The environment's agenda, its record of faults and the count of draws are no state of the
block and stay (log entry 15), and so does the parameter UNPAD_WINDOW (log entry 9). -/
def resetEvent (s : State) : State :=
  { State.reset with
    agenda := s.agenda
    epoch := s.epoch + 1
    draws := s.draws
    hostFault := s.hostFault
    unpadWindow := s.unpadWindow }

end Sys2Proof.Machine
end

