-- ==== Sys2Proof/Machine/Operands.lean ====
section
/-! DEFINITION. The operand forms of the commands: the byte and word operands and the result register
(10_state.md R22, R23), the key (R24), the block in STATE (R26, 43_round_ops.md R170, R171), the input length
(R28) and the round-key slices (42_key_schedule.md R155). -/

namespace Sys2Proof.Machine

/-- `OPA[7:0]` (R22). -/
def opaByte (s : State) : Byte := s.opa.extractLsb' 0 8

/-- `OPB[7:0]` (R22). -/
def opbByte (s : State) : Byte := s.opb.extractLsb' 0 8

/-- OPA as an AES word (R22). -/
def opaAes (s : State) : AesWord := aesOfWord s.opa

/-- OPB as an AES word (R22). -/
def opbAes (s : State) : AesWord := aesOfWord s.opb

/-- A byte result, `zext_32` of it (R23). -/
def writeResByte (v : Byte) (s : State) : State := { s with res := v.setWidth 32 }

/-- A word result, `d0` in bits 31..24 (R23). -/
def writeResAes (d : AesWord) (s : State) : State := { s with res := wordOfAes d }

/-- LEN as an unsigned number (R28). -/
def inputLength (s : State) : Nat := s.len.toNat

/-- Byte `s[r][c]` of the state (R10). -/
def stateByte (s : AesState) (r c : Fin 4) : Byte :=
  match c with
  | 0 => aesByte s.c0 r
  | 1 => aesByte s.c1 r
  | 2 => aesByte s.c2 r
  | 3 => aesByte s.c3 r

/-- The state with `s[r][c] = f r c`. -/
def stateOf (f : Fin 4 → Fin 4 → Byte) : AesState :=
  ⟨⟨f 0 0, f 1 0, f 2 0, f 3 0⟩, ⟨f 0 1, f 1 1, f 2 1, f 3 1⟩, ⟨f 0 2, f 1 2, f 2 2, f 3 2⟩,
    ⟨f 0 3, f 1 3, f 2 3, f 3 3⟩⟩

/-- Load of a 16-byte block: `s[r][c] = in[r + 4c]` (R170). -/
def loadState (x : List Byte) : AesState := stateOf fun r c => x.getD (r.val + 4 * c.val) 0#8

/-- Store of the state to 16 bytes: `out[r + 4c] = s[r][c]` (R171). -/
def storeState (s : AesState) : List Byte :=
  [s.c0.b0, s.c0.b1, s.c0.b2, s.c0.b3, s.c1.b0, s.c1.b1, s.c1.b2, s.c1.b3,
    s.c2.b0, s.c2.b1, s.c2.b2, s.c2.b3, s.c3.b0, s.c3.b1, s.c3.b2, s.c3.b3]

/-- The state held in STATE0..STATE3: `STATE[c]` is column `c`, row 0 in bits 31..24 (R26, R171). -/
def loadBlock (s : State) : AesState :=
  ⟨aesOfWord s.blk[0], aesOfWord s.blk[1], aesOfWord s.blk[2], aesOfWord s.blk[3]⟩

/-- Stores a state into STATE0..STATE3 (R26, R171). -/
def storeBlock (x : AesState) (s : State) : State :=
  { s with blk := #v[wordOfAes x.c0, wordOfAes x.c1, wordOfAes x.c2, wordOfAes x.c3] }

/-- Round-key slice `k`, the words `w[4k..4k+3]`, as the four columns it is added to (R155, R175). -/
def roundKey (w : Vector Word 44) (k : Fin 11) : AesState :=
  ⟨aesOfWord w[4 * k.val], aesOfWord w[4 * k.val + 1], aesOfWord w[4 * k.val + 2], aesOfWord w[4 * k.val + 3]⟩

end Sys2Proof.Machine
end

