-- ==== Sys2Proof/Machine/Flags.lean ====
section
/-! DEFINITION. The STATUS and CTRL fields (10_state.md R31 to R41) and the interrupt output
(60_exceptions.md R257). -/

namespace Sys2Proof.Machine

/-- The number of a completion code (60_exceptions.md R253). -/
def errNumber : ErrCode → BitVec 4
  | .ok => 0#4
  | .illegalCmd => 1#4
  | .noKey => 3#4
  | .noSched => 4#4
  | .badLen => 5#4

/-- ERR, always `ERR_CODE ≠ 0` (R34). -/
def errFlag (s : State) : Bool := errNumber s.errCode != 0#4

/-- KEY_VALID, `KWM = 0b1111` (R37). -/
def keyValid (s : State) : Bool := s.kwm == 0b1111#4

/-- STATUS as the host reads it (R31). -/
def statusWord (s : State) : Word :=
  0#20 ++ errNumber s.errCode ++ 0#1 ++ BitVec.ofBool s.schedValid ++ BitVec.ofBool (keyValid s)
    ++ BitVec.ofBool s.sboxReady ++ BitVec.ofBool s.overrun ++ BitVec.ofBool (errFlag s)
    ++ BitVec.ofBool s.done ++ BitVec.ofBool s.busy

/-- A host write to STATUS: 1 clears DONE (bit 1) and OVERRUN (bit 3), nothing else changes (R40). -/
def writeStatus (v : Word) (s : State) : State :=
  { s with done := s.done && !v.getLsbD 1, overrun := s.overrun && !v.getLsbD 3 }

/-- CTRL as the host reads it: bit 0 is IRQ_EN, the others read 0 (R41). -/
def ctrlWord (s : State) : Word := 0#31 ++ BitVec.ofBool s.irqEn

/-- A host write to CTRL (R41). -/
def writeCtrl (v : Word) (s : State) : State := { s with irqEn := v.getLsbD 0 }

/-- The `irq` output, `CTRL.IRQ_EN & STATUS.DONE` (R257). -/
def irq (s : State) : Bool := s.irqEn && s.done

/-- An accepted write to KEY word `k` (R25): the word, its bit of KWM, and SCHED_VALID cleared. -/
def writeKey (k : Fin 4) (v : Word) (s : State) : State :=
  { s with key := s.key.set k v, kwm := s.kwm ||| (1#4 <<< k.val), schedValid := false }

end Sys2Proof.Machine
end

