-- ==== Sys2Proof/Machine/Galois.lean ====
section
/-! DEFINITION. Galois-field arithmetic (40_galois_field.md): the functions R110 to R113 and the commands GF_ADD,
GF_SUB, GF_MULT, COEF_ADD, COEF_MULT (R115 to R119). -/

namespace Sys2Proof.Machine

/-- Addition in GF(2^8), bytewise exclusive OR (R110). -/
def gadd (a b : Byte) : Byte := a ^^^ b

/-- Subtraction in GF(2^8), the same function (R110). -/
def gsub (a b : Byte) : Byte := a ^^^ b

/-- One doubling: shift left, and reduce by 0x1B when the high bit was set (R111). -/
def xtime (a : Byte) : Byte := if a.getLsbD 7 then (a <<< 1) ^^^ 0x1B#8 else a <<< 1

/-- The multiplication loop, `n` iterations left (R111). -/
def gmulLoop : Nat → Byte → Byte → Byte → Byte
  | 0, _, _, p => p
  | n + 1, a, b, p => gmulLoop n (xtime a) (b >>> 1) (if b.getLsbD 0 then p ^^^ a else p)

/-- Multiplication in GF(2^8) modulo 0x11B, 8 iterations (R111). -/
def gmul (a b : Byte) : Byte := gmulLoop 8 a b 0#8

/-- Addition of AES words (R112). -/
def coefAdd (a b : AesWord) : AesWord :=
  ⟨gadd a.b0 b.b0, gadd a.b1 b.b1, gadd a.b2 b.b2, gadd a.b3 b.b3⟩

/-- Multiplication of AES words modulo x^4 + 1 (R113). -/
def coefMult (a b : AesWord) : AesWord :=
  ⟨gmul a.b0 b.b0 ^^^ gmul a.b3 b.b1 ^^^ gmul a.b2 b.b2 ^^^ gmul a.b1 b.b3,
    gmul a.b1 b.b0 ^^^ gmul a.b0 b.b1 ^^^ gmul a.b3 b.b2 ^^^ gmul a.b2 b.b3,
    gmul a.b2 b.b0 ^^^ gmul a.b1 b.b1 ^^^ gmul a.b0 b.b2 ^^^ gmul a.b3 b.b3,
    gmul a.b3 b.b0 ^^^ gmul a.b2 b.b1 ^^^ gmul a.b1 b.b2 ^^^ gmul a.b0 b.b3⟩

/-- GF_ADD (R115). -/
def execGfAdd (s : State) : Result := complete (writeResByte (gadd (opaByte s) (opbByte s)) s)

/-- GF_SUB (R116). -/
def execGfSub (s : State) : Result := complete (writeResByte (gsub (opaByte s) (opbByte s)) s)

/-- GF_MULT (R117). -/
def execGfMult (s : State) : Result := complete (writeResByte (gmul (opaByte s) (opbByte s)) s)

/-- COEF_ADD (R118). -/
def execCoefAdd (s : State) : Result := complete (writeResAes (coefAdd (opaAes s) (opbAes s)) s)

/-- COEF_MULT (R119). -/
def execCoefMult (s : State) : Result := complete (writeResAes (coefMult (opaAes s) (opbAes s)) s)

end Sys2Proof.Machine
end

