-- ==== Sys2Proof/Machine/Sbox.lean ====
section
/-! DEFINITION. The substitution tables (41_sbox.md): the generator (R131 to R135) and the commands SBOX_LOOKUP and
INV_SBOX_LOOKUP (R140, R141). -/

namespace Sys2Proof.Machine

/-- The square in GF(2^8). -/
def gsquare (x : Byte) : Byte := gmul x x

/-- The multiplicative inverse, with 0 mapped to 0 (R131), computed as x^254 (log entry 11): the square of
x^127, where each step of the chain squares and multiplies by x. -/
def ginv (x : Byte) : Byte :=
  let x3 := gmul (gsquare x) x
  let x7 := gmul (gsquare x3) x
  let x15 := gmul (gsquare x7) x
  let x31 := gmul (gsquare x15) x
  let x63 := gmul (gsquare x31) x
  gsquare (gmul (gsquare x63) x)

/-- The affine transform (R132). -/
def affine (b : Byte) : Byte :=
  b ^^^ b.rotateLeft 1 ^^^ b.rotateLeft 2 ^^^ b.rotateLeft 3 ^^^ b.rotateLeft 4 ^^^ 0x63#8

/-- The generated SBOX: `SBOX[x] = affine(ginv(x))` (R132). -/
def sboxTable : Vector Byte 256 := Vector.ofFn fun x => affine (ginv (BitVec.ofNat 8 x.val))

/-- The generated INV_SBOX: `INV_SBOX[SBOX[x]] <- x` for every byte `x`, over the old contents (R133). -/
def invSboxTable (sb old : Vector Byte 256) : Vector Byte 256 :=
  (List.finRange 256).foldl (fun t x => t.set sb[x].toNat (BitVec.ofNat 8 x.val) sb[x].isLt) old

/-- The generation step (R135): both tables written, SBOX_READY set, nothing else changed. -/
def generate (s : State) : State :=
  { s with sbox := sboxTable, invSbox := invSboxTable sboxTable s.invSbox, sboxReady := true }

/-- SBOX_LOOKUP (R140). -/
def execSboxLookup (s : State) : Result := complete (writeResByte (sboxAt s (opaByte s)) s)

/-- INV_SBOX_LOOKUP (R141). -/
def execInvSboxLookup (s : State) : Result := complete (writeResByte (invSboxAt s (opaByte s)) s)

end Sys2Proof.Machine
end

