-- ==== Sys2Proof/Machine/KeySchedule.lean ====
section
/-! DEFINITION. The key schedule expander (42_key_schedule.md): the expansion (R150 to R156) and KEY_EXPAND
(R157). -/

namespace Sys2Proof.Machine

/-- `rc(i)`: `rc(1) = 0x01`, `rc(i) = gmul(rc(i-1), 0x02)` (R151). The spec uses no `rc(0)`. -/
def rc : Nat → Byte
  | 0 => 0x00#8
  | 1 => 0x01#8
  | i + 2 => gmul (rc (i + 1)) 0x02#8

/-- RotWord (R152). -/
def rotWord (t : AesWord) : AesWord := ⟨t.b1, t.b2, t.b3, t.b0⟩

/-- SubWord through a table `sb` (R153). -/
def subWord (sb : Byte → Byte) (t : AesWord) : AesWord := ⟨sb t.b0, sb t.b1, sb t.b2, sb t.b3⟩

/-- The temporary of word index `i`, from `w[i-1]` (R154). -/
def schedTemp (sb : Byte → Byte) (i : Nat) (prev : AesWord) : AesWord :=
  if i % 4 = 0 then
    let t := subWord sb (rotWord prev)
    { t with b0 := t.b0 ^^^ rc (i / 4) }
  else prev

/-- `w[i]` from `w[i-4]` and `w[i-1]` (R154). -/
def schedNext (sb : Byte → Byte) (i : Nat) (back4 prev : AesWord) : AesWord :=
  coefAdd back4 (schedTemp sb i prev)

/-- `n` words of the expansion from the four consecutive words `a b c d`, the word after `d` having index `i`. -/
def expandFrom (sb : Byte → Byte) : (n i : Nat) → (a b c d : AesWord) → List AesWord
  | 0, _, _, _, _, _ => []
  | n + 1, i, a, b, c, d => a :: expandFrom sb n (i + 1) b c d (schedNext sb i a d)

/-- The expansion has as many words as were asked for. -/
theorem expandFrom_length (sb : Byte → Byte) (n i : Nat) (a b c d : AesWord) :
    (expandFrom sb n i a b c d).length = n := by
  induction n generalizing i a b c d with
  | zero => rfl
  | succ n ih => simp [expandFrom, ih]

/-- `expand(key)`, the 44 words as SCHED holds them (R154, R157): the first four are the key's (R150), and the
round constant is a temporary of one expansion (R158). -/
def expandKey (sb : Byte → Byte) (key : Vector Word 4) : Vector Word 44 :=
  ⟨((expandFrom sb 44 4 (aesOfWord key[0]) (aesOfWord key[1]) (aesOfWord key[2]) (aesOfWord key[3])).map
    wordOfAes).toArray, by simp [expandFrom_length]⟩

/-- The expansion of the key in KEY0..KEY3 through SBOX, written to SCHED with SCHED_VALID set (R157, R230). -/
def expandIntoSched (s : State) : State := writeSched (expandKey (sboxAt s) s.key) s

/-- KEY_EXPAND (R157). -/
def execKeyExpand (s : State) : Result :=
  if keyValid s then complete (expandIntoSched s)
  else raiseError 0x30#8 .noKey s

end Sys2Proof.Machine
end

