-- ==== Sys2Proof/Machine/RoundOps.lean ====
section
/-! DEFINITION. The round operations (43_round_ops.md): the functions R172 to R178 and the commands SUB_BYTES,
SHIFT_ROWS, MIX_COLUMNS, ADD_ROUND_KEY, INV_SUB_BYTES, INV_SHIFT_ROWS, INV_MIX_COLUMNS (R180 to R186). -/

namespace Sys2Proof.Machine

/-- SubBytes and InvSubBytes through a table: `s'[r][c] = sb[s[r][c]]` (R172, R176). -/
def subBytes (sb : Byte → Byte) (s : AesState) : AesState :=
  ⟨subWord sb s.c0, subWord sb s.c1, subWord sb s.c2, subWord sb s.c3⟩

/-- ShiftRows: `s'[r][c] = s[r][(c + r) mod 4]` (R173). -/
def shiftRows (s : AesState) : AesState := stateOf fun r c => stateByte s r (c + r)

/-- InvShiftRows: `s'[r][c] = s[r][(c - r) mod 4]` (R177). -/
def invShiftRows (s : AesState) : AesState := stateOf fun r c => stateByte s r (c - r)

/-- Each column multiplied by a fixed polynomial (R174, R178). -/
def mulColumns (p : AesWord) (s : AesState) : AesState :=
  ⟨coefMult p s.c0, coefMult p s.c1, coefMult p s.c2, coefMult p s.c3⟩

/-- MixColumns, the polynomial {02,01,01,03} (R174). -/
def mixColumns (s : AesState) : AesState := mulColumns ⟨0x02#8, 0x01#8, 0x01#8, 0x03#8⟩ s

/-- InvMixColumns, the polynomial {0e,09,0d,0b} (R178). -/
def invMixColumns (s : AesState) : AesState := mulColumns ⟨0x0e#8, 0x09#8, 0x0d#8, 0x0b#8⟩ s

/-- AddRoundKey with a round-key slice: word `4k+c` of the schedule is added to column `c` (R175). -/
def addRoundKey (rk s : AesState) : AesState :=
  ⟨coefAdd s.c0 rk.c0, coefAdd s.c1 rk.c1, coefAdd s.c2 rk.c2, coefAdd s.c3 rk.c3⟩

/-- A round command: an operation on the block in STATE, and success. -/
def onBlock (f : AesState → AesState) (s : State) : Result := complete (storeBlock (f (loadBlock s)) s)

/-- SUB_BYTES (R180). -/
def execSubBytes (s : State) : Result := onBlock (subBytes (sboxAt s)) s

/-- SHIFT_ROWS (R181). -/
def execShiftRows (s : State) : Result := onBlock shiftRows s

/-- MIX_COLUMNS (R182). -/
def execMixColumns (s : State) : Result := onBlock mixColumns s

/-- ADD_ROUND_KEY (R183). An index over 10 is ILLEGAL_CMD, which comes before the check of SCHED_VALID (R255); the
decoder already refuses it (log entry 12). -/
def execAddRoundKey (rnd : BitVec 4) (s : State) : Result :=
  if h : rnd.toNat ≤ 10 then
    if s.schedValid then
      onBlock (addRoundKey (roundKey (schedWords s) ⟨rnd.toNat, Nat.lt_succ_of_le h⟩)) s
    else raiseError 0x43#8 .noSched s
  else raiseError 0x43#8 .illegalCmd s

/-- INV_SUB_BYTES (R184). -/
def execInvSubBytes (s : State) : Result := onBlock (subBytes (invSboxAt s)) s

/-- INV_SHIFT_ROWS (R185). -/
def execInvShiftRows (s : State) : Result := onBlock invShiftRows s

/-- INV_MIX_COLUMNS (R186). -/
def execInvMixColumns (s : State) : Result := onBlock invMixColumns s

end Sys2Proof.Machine
end

