-- ==== Sys2Proof/Machine/BlockCipher.lean ====
section
/-! DEFINITION. The 16-byte block cipher (44_block_cipher.md): the pipelines (R200 to R202) and the commands
ENCRYPT_BLOCK and DECRYPT_BLOCK (R204, R205). -/

namespace Sys2Proof.Machine

/-- The rounds with a column mix, 1..9 (R200). -/
def mainRounds : List (Fin 11) := [1, 2, 3, 4, 5, 6, 7, 8, 9]

/-- One main round of Cipher (R200, step 3). -/
def cipherRound (sb : Byte → Byte) (w : Vector Word 44) (s : AesState) (r : Fin 11) : AesState :=
  addRoundKey (roundKey w r) (mixColumns (shiftRows (subBytes sb s)))

/-- Cipher on the state (R200, steps 2 to 4). -/
def cipher (sb : Byte → Byte) (w : Vector Word 44) (x : AesState) : AesState :=
  let s := mainRounds.foldl (cipherRound sb w) (addRoundKey (roundKey w 0) x)
  addRoundKey (roundKey w 10) (shiftRows (subBytes sb s))

/-- One main round of InvCipher (R201): InvMixColumns comes after AddRoundKey. -/
def invCipherRound (isb : Byte → Byte) (w : Vector Word 44) (s : AesState) (r : Fin 11) : AesState :=
  invMixColumns (addRoundKey (roundKey w r) (subBytes isb (invShiftRows s)))

/-- InvCipher on the state (R201). -/
def invCipher (isb : Byte → Byte) (w : Vector Word 44) (x : AesState) : AesState :=
  let s := mainRounds.reverse.foldl (invCipherRound isb w) (addRoundKey (roundKey w 10) x)
  addRoundKey (roundKey w 0) (subBytes isb (invShiftRows s))

/-- ENCRYPT_BLOCK (R204). -/
def execEncryptBlock (s : State) : Result :=
  if s.schedValid then onBlock (cipher (sboxAt s) (schedWords s)) s
  else raiseError 0x50#8 .noSched s

/-- DECRYPT_BLOCK (R205). -/
def execDecryptBlock (s : State) : Result :=
  if s.schedValid then onBlock (invCipher (invSboxAt s) (schedWords s)) s
  else raiseError 0x51#8 .noSched s

end Sys2Proof.Machine
end

