-- ==== Sys2Proof/Machine/EcbCodec.lean ====
section
/-! DEFINITION. The ECB codec (45_ecb_codec.md): chunking, padding and the unpad heuristic (R220 to R226) and the
commands ECB_ENCRYPT, ECB_DECRYPT and ECB_DECRYPT_RAW (R227 to R230). -/

namespace Sys2Proof.Machine

/-- The least `q` with `q * d >= n` (00_scope.md R11). -/
def ceilDiv (n d : Nat) : Nat := (n + (d - 1)) / d

/-- Chunk `b` of an input, at most 16 bytes (R220). -/
def chunk (x : List Byte) (b : Nat) : List Byte := (x.drop (16 * b)).take 16

/-- A chunk of `m` bytes followed by `16 - m` bytes of value `16 - m`: nothing for a full chunk (R221, R222). -/
def padChunk (c : List Byte) : List Byte :=
  c ++ List.replicate (16 - c.length) (BitVec.ofNat 8 (16 - c.length))

/-- The bytes ECB_ENCRYPT writes for an input (R227). -/
def ecbEncryptBytes (sb : Byte → Byte) (w : Vector Word 44) (x : List Byte) : List Byte :=
  (List.range (ceilDiv x.length 16)).flatMap fun b => storeState (cipher sb w (loadState (padChunk (chunk x b))))

/-- The bytes a decrypt writes for an input of whole blocks (R226, R228). -/
def ecbDecryptBytes (isb : Byte → Byte) (w : Vector Word 44) (x : List Byte) : List Byte :=
  (List.range (x.length / 16)).flatMap fun b => storeState (invCipher isb w (loadState (chunk x b)))

/-- The number of equal bytes at the end of a buffer (R224, `run`). -/
def trailingRun (x : List Byte) : Nat :=
  match x.reverse with
  | [] => 0
  | v :: rest => 1 + (rest.takeWhile (· == v)).length

/-- `UnpadLen(x)` with the look-back window an argument (R224). -/
def unpadLen (window : Nat) (x : List Byte) : Nat :=
  match x.getLast? with
  | none => 0
  | some v => if min (trailingRun x) window = v.toNat then x.length - v.toNat else x.length

/-- ECB_ENCRYPT's length check (R227, R254). -/
def encryptLenOk (n : Nat) : Bool := decide (1 ≤ n) && decide (n ≤ Config.bufBytes)

/-- The decrypts' length check (R228, R254). -/
def decryptLenOk (n : Nat) : Bool := decide (1 ≤ n) && decide (n ≤ Config.bufBytes) && decide (n % 16 = 0)

/-- `IN_BUF[0..LEN)` (R71). -/
def inputBytes (s : State) : List Byte := memBytes s inBufBase (inputLength s)

/-- What an ECB command leaves when its checks pass, given the bytes it writes and its output length: the schedule of
the key (R230), `OUT_BUF[0..m)` and OUT_LEN. -/
def ecbResult (out : List Byte) (n : Nat) (s : State) : State :=
  { storeBytes outBufBase out (expandIntoSched s) with outLen := BitVec.ofNat 32 n }

/-- The bytes ECB_ENCRYPT writes in a state. -/
def encryptOutput (s : State) : List Byte :=
  ecbEncryptBytes (sboxAt s) (expandKey (sboxAt s) s.key) (inputBytes s)

/-- The bytes ECB_DECRYPT and ECB_DECRYPT_RAW write in a state. -/
def decryptOutput (s : State) : List Byte :=
  ecbDecryptBytes (invSboxAt s) (expandKey (sboxAt s) s.key) (inputBytes s)

/-- ECB_ENCRYPT (R227). -/
def execEcbEncrypt (s : State) : Result :=
  if keyValid s then
    if encryptLenOk (inputLength s) then
      complete (ecbResult (encryptOutput s) (16 * ceilDiv (inputLength s) 16) s)
    else raiseError 0x60#8 .badLen s
  else raiseError 0x60#8 .noKey s

/-- ECB_DECRYPT (R228), with the window of the machine (R224; log entry 9). -/
def execEcbDecrypt (s : State) : Result :=
  if keyValid s then
    if decryptLenOk (inputLength s) then
      complete (ecbResult (decryptOutput s) (unpadLen s.unpadWindow.val (decryptOutput s)) s)
    else raiseError 0x61#8 .badLen s
  else raiseError 0x61#8 .noKey s

/-- ECB_DECRYPT_RAW (R229). -/
def execEcbDecryptRaw (s : State) : Result :=
  if keyValid s then
    if decryptLenOk (inputLength s) then
      complete (ecbResult (decryptOutput s) (inputLength s) s)
    else raiseError 0x62#8 .badLen s
  else raiseError 0x62#8 .noKey s

end Sys2Proof.Machine
end

