-- ==== Sys2Proof/Machine/Dispatch.lean ====
section
/-! DEFINITION. What each command does: one arm per constructor of Instr, each one call of its meaning. -/

namespace Sys2Proof.Machine

/-- Runs a command (30_encoding.md R93, 60_exceptions.md R250): its checks, its effect and its completion. -/
def exec (i : Instr) (s : State) : Host.Outcome State Fault Refusal :=
  match i with
  -- 40_galois_field.md R115 to R119
  | .gfAdd => Sys2Proof.Machine.execGfAdd s
  | .gfSub => Sys2Proof.Machine.execGfSub s
  | .gfMult => Sys2Proof.Machine.execGfMult s
  | .coefAdd => Sys2Proof.Machine.execCoefAdd s
  | .coefMult => Sys2Proof.Machine.execCoefMult s
  -- 41_sbox.md R140, R141
  | .sboxLookup => Sys2Proof.Machine.execSboxLookup s
  | .invSboxLookup => Sys2Proof.Machine.execInvSboxLookup s
  -- 42_key_schedule.md R157
  | .keyExpand => Sys2Proof.Machine.execKeyExpand s
  -- 43_round_ops.md R180 to R186
  | .subBytes => Sys2Proof.Machine.execSubBytes s
  | .shiftRows => Sys2Proof.Machine.execShiftRows s
  | .mixColumns => Sys2Proof.Machine.execMixColumns s
  | .addRoundKey rnd => Sys2Proof.Machine.execAddRoundKey rnd s
  | .invSubBytes => Sys2Proof.Machine.execInvSubBytes s
  | .invShiftRows => Sys2Proof.Machine.execInvShiftRows s
  | .invMixColumns => Sys2Proof.Machine.execInvMixColumns s
  -- 44_block_cipher.md R204, R205
  | .encryptBlock => Sys2Proof.Machine.execEncryptBlock s
  | .decryptBlock => Sys2Proof.Machine.execDecryptBlock s
  -- 45_ecb_codec.md R227 to R229
  | .ecbEncrypt => Sys2Proof.Machine.execEcbEncrypt s
  | .ecbDecrypt => Sys2Proof.Machine.execEcbDecrypt s
  | .ecbDecryptRaw => Sys2Proof.Machine.execEcbDecryptRaw s

end Sys2Proof.Machine
end

