-- ==== Sys2Proof/Machine/HostPort.lean ====
section
/-! DEFINITION. The host port (20_memory.md R60 to R70): the address map (10_state.md R20), reads, writes and the
response to a request. -/

namespace Sys2Proof.Machine

/-- What a word of the address map is (R20). -/
inductive Target where
  | cmd
  | status
  | ctrl
  | len
  | outLen
  | opa
  | opb
  | res
  | key (k : Fin 4)
  | state (k : Fin 4)
  | sched (i : Fin 44)
  | sbox (k : Fin 64)
  | invSbox (k : Fin 64)
  | inBuf (k : Fin 1024)
  | outBuf (k : Fin 1024)
  | reserved
  deriving DecidableEq, Repr

/-- The map of R20, by the offset of an aligned word. -/
def targetOf (addr : BitVec 14) : Target :=
  let n := addr.toNat
  if n < 0x004 then .cmd
  else if n < 0x008 then .status
  else if n < 0x00C then .ctrl
  else if n < 0x010 then .len
  else if n < 0x014 then .outLen
  else if n < 0x018 then .opa
  else if n < 0x01C then .opb
  else if n < 0x020 then .res
  else if h : n < 0x030 then .key ⟨(n - 0x020) / 4, by omega⟩
  else if h : n < 0x040 then .state ⟨(n - 0x030) / 4, by omega⟩
  else if h : n < 0x0F0 then .sched ⟨(n - 0x040) / 4, by omega⟩
  else if n < 0x100 then .reserved
  else if h : n < 0x200 then .sbox ⟨(n - 0x100) / 4, by omega⟩
  else if h : n < 0x300 then .invSbox ⟨(n - 0x200) / 4, by omega⟩
  else if n < 0x1000 then .reserved
  else if h : n < 0x2000 then .inBuf ⟨(n - 0x1000) / 4, by omega⟩
  else if h : n < 0x3000 then .outBuf ⟨(n - 0x2000) / 4, by omega⟩
  else .reserved

/-- The offset of word `k` of IN_BUF (R43). -/
def inBufWordAddr (k : Fin 1024) : Nat := inBufBase + 4 * k.val

/-- The offset of word `k` of OUT_BUF (R43). -/
def outBufWordAddr (k : Fin 1024) : Nat := outBufBase + 4 * k.val

/-- Word `k` of a table window: entries `4k..4k+3`, entry `4k` in bits 31..24 (R42, R139). -/
def tableWord (t : Byte → Byte) (k : Fin 64) : Word :=
  wordOfAes ⟨t (BitVec.ofNat 8 (4 * k.val)), t (BitVec.ofNat 8 (4 * k.val + 1)), t (BitVec.ofNat 8 (4 * k.val + 2)),
    t (BitVec.ofNat 8 (4 * k.val + 3))⟩

/-- The word a target holds; 0 for a reserved one (R64). -/
def readTarget (s : State) : Target → Word
  | .cmd => s.cmd
  | .status => statusWord s
  | .ctrl => ctrlWord s
  | .len => s.len
  | .outLen => s.outLen
  | .opa => s.opa
  | .opb => s.opb
  | .res => s.res
  | .key k => s.key[k]
  | .state k => s.blk[k]
  | .sched i => (schedWords s)[i]
  | .sbox k => tableWord (sboxAt s) k
  | .invSbox k => tableWord (invSboxAt s) k
  | .inBuf k => memWord s (inBufWordAddr k)
  | .outBuf k => memWord s (outBufWordAddr k)
  | .reserved => 0#32

/-- The targets that read their current values whatever BUSY is (R70). -/
def alwaysReadable : Target → Bool
  | .cmd | .status | .ctrl => true
  | .len | .outLen | .opa | .opb | .res | .key _ | .state _ | .sched _ => false
  | .sbox _ | .invSbox _ | .inBuf _ | .outBuf _ | .reserved => false

/-- The table windows, whose reads are draws before generation (R139, R291). -/
def isTableWindow : Target → Bool
  | .sbox _ | .invSbox _ => true
  | .cmd | .status | .ctrl | .len | .outLen | .opa | .opb | .res | .key _ | .state _ | .sched _ => false
  | .inBuf _ | .outBuf _ | .reserved => false

/-- A read that returns a draw: while BUSY = 1, of any target but CMD, STATUS and CTRL (R70); while
SBOX_READY = 0, of a table window (R139). -/
def readIsDraw (s : State) (t : Target) : Bool :=
  (s.busy && !alwaysReadable t) || (!s.sboxReady && isTableWindow t)

/-- The writes that are dropped with OVERRUN while BUSY = 1 (R65, R69). -/
def droppedWhileBusy : Target → Bool
  | .cmd | .len | .opa | .opb | .key _ | .state _ | .inBuf _ => true
  | .status | .ctrl | .outLen | .res | .sched _ | .sbox _ | .invSbox _ | .outBuf _ | .reserved => false

/-- An accepted write (R65): the read-only and reserved targets ignore it. -/
def writeTarget (v : Word) (s : State) : Target → State
  | .cmd => issue v s
  | .status => writeStatus v s
  | .ctrl => writeCtrl v s
  | .len => { s with len := v }
  | .opa => { s with opa := v }
  | .opb => { s with opb := v }
  | .key k => writeKey k v s
  | .state k => { s with blk := s.blk.set k v }
  | .inBuf k => storeWord (inBufWordAddr k) v s
  | .outLen | .res | .sched _ | .sbox _ | .invSbox _ | .outBuf _ | .reserved => s

/-- A legal write (R65, R69). -/
def hostWrite (t : Target) (v : Word) (s : State) : State :=
  if s.busy && droppedWhileBusy t then { s with overrun := true } else writeTarget v s t

/-- A legal request: `size = 4` and an aligned address (R61). -/
def legalRequest (r : Request) : Bool := r.size == 4 && r.addr.extractLsb' 0 2 == 0#2

/-- Answers a request with a draw (R70, R139; log entries 6, 7, 8). -/
def respondDraw (s : State) : State :=
  { s with resp := some ⟨Config.freeWord s.draws, false⟩, draws := s.draws + 1 }

/-- Answers a request with a word. -/
def respond (v : Word) (s : State) : State := { s with resp := some ⟨v, false⟩ }

/-- An illegal request: `err = 1`, `rdata = 0`, no state of the block changed, and the host's fault recorded (R61;
log entry 2). -/
def refuseRequest (s : State) : State := { s with resp := some ⟨0#32, true⟩, hostFault := true }

/-- One access of the host (R60, R61, R64, R65). The spec does not state the `rdata` of a write's response: a draw
(log entry 8). -/
def hostAccess (r : Request) (s : State) : State :=
  if legalRequest r then
    if r.we then respondDraw (hostWrite (targetOf r.addr) r.wdata s)
    else if readIsDraw s (targetOf r.addr) then respondDraw s
    else respond (readTarget s (targetOf r.addr)) s
  else refuseRequest s

end Sys2Proof.Machine
end

