-- ==== Sys2Proof/Machine/Engine.lean ====
section
/-! DEFINITION. The engine's step (41_sbox.md R135, 60_exceptions.md R250) and which agent moves next
(00_scope.md R15, R16). -/

namespace Sys2Proof.Machine

/-- The command step (R250): the pending word is decoded and run; a word that is not valid completes with
ILLEGAL_CMD (30_encoding.md R92, R94). -/
def commandStep (s : State) : Result :=
  match decode s.cmd with
  | .ok i => exec i s
  | .error _ => raiseError (opField s.cmd) .illegalCmd s

/-- The engine's turn (R15): generation while SBOX_READY = 0, else the pending command, else it waits (R281; log
entry 16). -/
def engineStep (s : State) : Result :=
  if s.sboxReady then
    if s.busy then commandStep s else .next s
  else .next (generate s)

/-- The next move of the agenda; when the environment has no move left, the engine's turn (R15, R16; log
entry 1). -/
def agentStep (s : State) : Result :=
  match s.agenda with
  | [] => engineStep s
  | .engine :: rest => engineStep { s with agenda := rest }
  | .access r :: rest => .next (hostAccess r { s with agenda := rest })
  | .reset :: rest => .next (resetEvent { s with agenda := rest })

/-- A command word stands for execution at the engine's next turn: the tables generated if they are not yet (R135),
and the word accepted as a write to CMD is (R98). -/
def placeCommand (c : Word) (s : State) : State :=
  issue c (if s.sboxReady then s else generate s)

end Sys2Proof.Machine
end

