-- ==== Sys2Proof/Machine/Step.lean ====
section
/-! DEFINITION. One step of the machine, and how a command word is placed where the next step runs it. -/

namespace Sys2Proof.Machine

/-- One step: the next agent's move (00_scope.md R15). -/
def step (s : State) : Host.Outcome State Fault Refusal := agentStep s

/-- The state with a command word placed so that the very next step runs it (log entry 19): the block fetches
nothing (10_state.md R45), so the word is issued through CMD, with the tables generated, and the engine moves
next. -/
def State.withFetchWord (s : State) (nbits w : Nat) : State :=
  let p := placeCommand (BitVec.ofNat 32 (w % 2 ^ nbits)) s
  { p with agenda := .engine :: s.agenda }

end Sys2Proof.Machine
end

