-- ==== Sys2Proof/Safety.lean ====
section
/-! DEFINITION. What counts as a safe run, in the terms the statements use. -/

namespace Sys2Proof.Machine

/-- No request of the host was illegal so far (20_memory.md R61). -/
def hostClean (s : State) : Prop := s.hostFault = false

/-- A normal end: the environment has no move left, the tables are generated, no command is pending, and no illegal
request was made ("never treats the faulted run as a normal end", R61). -/
def normalEnd (s : State) : Prop :=
  s.agenda = [] ∧ s.sboxReady = true ∧ s.busy = false ∧ hostClean s

/-- The tables are the generated ones (41_sbox.md R130, R135). -/
def TablesGenerated (s : State) : Prop :=
  s.sboxReady = true → s.sbox = sboxTable ∧ ∀ x : Byte, s.invSbox[(s.sbox[x.toNat]).toNat] = x

/-- SCHED_VALID says that SCHED holds the expansion of the current KEY (10_state.md R31, R38). -/
def ScheduleCurrent (s : State) : Prop :=
  s.schedValid = true →
    s.sboxReady = true ∧ s.schedWritten = true ∧ keyValid s = true ∧ s.sched = expandKey (sboxAt s) s.key

/-- A pending command has not completed (10_state.md R32, R33). -/
def PendingNotDone (s : State) : Prop := s.busy = true → s.done = false

/-- The invariant of the block: what every state a run reaches meets. -/
def BlockInv (s : State) : Prop :=
  Memory.wf s.mem ∧ TablesGenerated s ∧ ScheduleCurrent s ∧ PendingNotDone s ∧ s.outLen.toNat ≤ Config.bufBytes

end Sys2Proof.Machine
end

