-- ==== Sys2Proof/Certificates/Slice0/Obligations.lean ====
section
/-! DEFINITION. The statements for the provers, from the numbered rules of spec/. -/

namespace Sys2Proof.Claims

open Sys2Proof.Machine

/-- The engine moves next, and `rest` is the agenda after its turn (00_scope.md R15; log entry 1). -/
def engineTurn (s : State) (rest : List Event) : Prop :=
  (s.agenda = [] ∧ rest = []) ∨ s.agenda = .engine :: rest

/-- The host's next access is a legal write of `v` to offset `a`. -/
def hostWrites (s : State) (rest : List Event) (a : Nat) (v : Word) : Prop :=
  ∃ r : Request, s.agenda = .access r :: rest ∧ r.we = true ∧ r.size = 4 ∧ r.addr.toNat = a ∧ a % 4 = 0 ∧ r.wdata = v

/-- The host's next access is a legal read of offset `a`. -/
def hostReads (s : State) (rest : List Event) (a : Nat) : Prop :=
  ∃ r : Request, s.agenda = .access r :: rest ∧ r.we = false ∧ r.size = 4 ∧ r.addr.toNat = a ∧ a % 4 = 0

/-- The state `s` after a write was answered without error, the response's data being the next draw (log entry 8). -/
def answered (s : State) (rest : List Event) : State :=
  { s with agenda := rest, resp := some ⟨Config.freeWord s.draws, false⟩, draws := s.draws + 1 }

/-- The state `s` after a read that returned `v`. -/
def returned (s : State) (rest : List Event) (v : Word) : State :=
  { s with agenda := rest, resp := some ⟨v, false⟩ }

/-- The flags after successEnd (60_exceptions.md R251). -/
def successEnd (s : State) : State := { s with busy := false, done := true, errCode := .ok }

/-- The flags after an error, OUT_LEN kept (60_exceptions.md R252). -/
def errorEnd (code : ErrCode) (s : State) : State := { s with busy := false, done := true, errCode := code }

/-- The schedule of the key written, and SCHED_VALID set (45_ecb_codec.md R230). -/
def withSchedule (s : State) : State :=
  { s with sched := expandKey (sboxAt s) s.key, schedWritten := true, schedValid := true }

/-- Byte `s[r][c]` of the block in STATE: bits `[31-8r : 24-8r]` of STATE word `c` (10_state.md R26). -/
def byteAt (s : State) (r c : Fin 4) : Byte := (s.blk[c]).extractLsb' (24 - 8 * r.val) 8

/-- The family of a command, the high nibble of its opcode (30_encoding.md R93). -/
def family (i : Instr) : Nat := (opcodeOf i).toNat / 16

/-- Commands run one after the other. -/
def runAll : List Instr → State → Result
  | [], s => .next s
  | i :: is, s =>
    match exec i s with
    | .next t => runAll is t
    | .fault r => .fault r
    | .refused r => .refused r

/-- The tables are in place: generated, and SBOX_READY = 1 (41_sbox.md R135). -/
def tablesReady (s : State) : Prop := s.sboxReady = true ∧ TablesGenerated s

/-- Carry-less product of polynomials over the two-element field, as far as 16 bits hold it. -/
def clmul (a b : BitVec 16) : BitVec 16 :=
  (List.range 8).foldl (fun p i => if b.getLsbD i then p ^^^ (a <<< i) else p) 0#16

/-- SubWord on a register (42_key_schedule.md R153). -/
def subWordReg (sb : Byte → Byte) (x : Word) : Word :=
  sb (x.extractLsb' 24 8) ++ sb (x.extractLsb' 16 8) ++ sb (x.extractLsb' 8 8) ++ sb (x.extractLsb' 0 8)

/-- The 16 input bytes of block `b` of an encrypt: the real bytes, then the pad value (45_ecb_codec.md R220,
R221). -/
def paddedBlock (s : State) (b : Nat) : List Byte :=
  (List.range 16).map fun j =>
    if 16 * b + j < s.len.toNat then memByte s (0x1000 + 16 * b + j)
    else BitVec.ofNat 8 (16 * (b + 1) - s.len.toNat)

/-- The main rounds of ENCRYPT_BLOCK as round commands (44_block_cipher.md R200). -/
def encryptRounds : List Instr :=
  ([1, 2, 3, 4, 5, 6, 7, 8, 9] : List (BitVec 4)).flatMap fun r => [.subBytes, .shiftRows, .mixColumns, .addRoundKey r]

/-- The main rounds of DECRYPT_BLOCK as round commands (44_block_cipher.md R201). -/
def decryptRounds : List Instr :=
  ([9, 8, 7, 6, 5, 4, 3, 2, 1] : List (BitVec 4)).flatMap fun r =>
    [.invShiftRows, .invSubBytes, .addRoundKey r, .invMixColumns]

/-- The table of 41_sbox.md R136, row by row. -/
def printedSbox : List Byte :=
  [0x63, 0x7c, 0x77, 0x7b, 0xf2, 0x6b, 0x6f, 0xc5, 0x30, 0x01, 0x67, 0x2b, 0xfe, 0xd7, 0xab, 0x76] ++
  [0xca, 0x82, 0xc9, 0x7d, 0xfa, 0x59, 0x47, 0xf0, 0xad, 0xd4, 0xa2, 0xaf, 0x9c, 0xa4, 0x72, 0xc0] ++
  [0xb7, 0xfd, 0x93, 0x26, 0x36, 0x3f, 0xf7, 0xcc, 0x34, 0xa5, 0xe5, 0xf1, 0x71, 0xd8, 0x31, 0x15] ++
  [0x04, 0xc7, 0x23, 0xc3, 0x18, 0x96, 0x05, 0x9a, 0x07, 0x12, 0x80, 0xe2, 0xeb, 0x27, 0xb2, 0x75] ++
  [0x09, 0x83, 0x2c, 0x1a, 0x1b, 0x6e, 0x5a, 0xa0, 0x52, 0x3b, 0xd6, 0xb3, 0x29, 0xe3, 0x2f, 0x84] ++
  [0x53, 0xd1, 0x00, 0xed, 0x20, 0xfc, 0xb1, 0x5b, 0x6a, 0xcb, 0xbe, 0x39, 0x4a, 0x4c, 0x58, 0xcf] ++
  [0xd0, 0xef, 0xaa, 0xfb, 0x43, 0x4d, 0x33, 0x85, 0x45, 0xf9, 0x02, 0x7f, 0x50, 0x3c, 0x9f, 0xa8] ++
  [0x51, 0xa3, 0x40, 0x8f, 0x92, 0x9d, 0x38, 0xf5, 0xbc, 0xb6, 0xda, 0x21, 0x10, 0xff, 0xf3, 0xd2] ++
  [0xcd, 0x0c, 0x13, 0xec, 0x5f, 0x97, 0x44, 0x17, 0xc4, 0xa7, 0x7e, 0x3d, 0x64, 0x5d, 0x19, 0x73] ++
  [0x60, 0x81, 0x4f, 0xdc, 0x22, 0x2a, 0x90, 0x88, 0x46, 0xee, 0xb8, 0x14, 0xde, 0x5e, 0x0b, 0xdb] ++
  [0xe0, 0x32, 0x3a, 0x0a, 0x49, 0x06, 0x24, 0x5c, 0xc2, 0xd3, 0xac, 0x62, 0x91, 0x95, 0xe4, 0x79] ++
  [0xe7, 0xc8, 0x37, 0x6d, 0x8d, 0xd5, 0x4e, 0xa9, 0x6c, 0x56, 0xf4, 0xea, 0x65, 0x7a, 0xae, 0x08] ++
  [0xba, 0x78, 0x25, 0x2e, 0x1c, 0xa6, 0xb4, 0xc6, 0xe8, 0xdd, 0x74, 0x1f, 0x4b, 0xbd, 0x8b, 0x8a] ++
  [0x70, 0x3e, 0xb5, 0x66, 0x48, 0x03, 0xf6, 0x0e, 0x61, 0x35, 0x57, 0xb9, 0x86, 0xc1, 0x1d, 0x9e] ++
  [0xe1, 0xf8, 0x98, 0x11, 0x69, 0xd9, 0x8e, 0x94, 0x9b, 0x1e, 0x87, 0xe9, 0xce, 0x55, 0x28, 0xdf] ++
  [0x8c, 0xa1, 0x89, 0x0d, 0xbf, 0xe6, 0x42, 0x68, 0x41, 0x99, 0x2d, 0x0f, 0xb0, 0x54, 0xbb, 0x16]

/-- The table of 41_sbox.md R137, row by row. -/
def printedInvSbox : List Byte :=
  [0x52, 0x09, 0x6a, 0xd5, 0x30, 0x36, 0xa5, 0x38, 0xbf, 0x40, 0xa3, 0x9e, 0x81, 0xf3, 0xd7, 0xfb] ++
  [0x7c, 0xe3, 0x39, 0x82, 0x9b, 0x2f, 0xff, 0x87, 0x34, 0x8e, 0x43, 0x44, 0xc4, 0xde, 0xe9, 0xcb] ++
  [0x54, 0x7b, 0x94, 0x32, 0xa6, 0xc2, 0x23, 0x3d, 0xee, 0x4c, 0x95, 0x0b, 0x42, 0xfa, 0xc3, 0x4e] ++
  [0x08, 0x2e, 0xa1, 0x66, 0x28, 0xd9, 0x24, 0xb2, 0x76, 0x5b, 0xa2, 0x49, 0x6d, 0x8b, 0xd1, 0x25] ++
  [0x72, 0xf8, 0xf6, 0x64, 0x86, 0x68, 0x98, 0x16, 0xd4, 0xa4, 0x5c, 0xcc, 0x5d, 0x65, 0xb6, 0x92] ++
  [0x6c, 0x70, 0x48, 0x50, 0xfd, 0xed, 0xb9, 0xda, 0x5e, 0x15, 0x46, 0x57, 0xa7, 0x8d, 0x9d, 0x84] ++
  [0x90, 0xd8, 0xab, 0x00, 0x8c, 0xbc, 0xd3, 0x0a, 0xf7, 0xe4, 0x58, 0x05, 0xb8, 0xb3, 0x45, 0x06] ++
  [0xd0, 0x2c, 0x1e, 0x8f, 0xca, 0x3f, 0x0f, 0x02, 0xc1, 0xaf, 0xbd, 0x03, 0x01, 0x13, 0x8a, 0x6b] ++
  [0x3a, 0x91, 0x11, 0x41, 0x4f, 0x67, 0xdc, 0xea, 0x97, 0xf2, 0xcf, 0xce, 0xf0, 0xb4, 0xe6, 0x73] ++
  [0x96, 0xac, 0x74, 0x22, 0xe7, 0xad, 0x35, 0x85, 0xe2, 0xf9, 0x37, 0xe8, 0x1c, 0x75, 0xdf, 0x6e] ++
  [0x47, 0xf1, 0x1a, 0x71, 0x1d, 0x29, 0xc5, 0x89, 0x6f, 0xb7, 0x62, 0x0e, 0xaa, 0x18, 0xbe, 0x1b] ++
  [0xfc, 0x56, 0x3e, 0x4b, 0xc6, 0xd2, 0x79, 0x20, 0x9a, 0xdb, 0xc0, 0xfe, 0x78, 0xcd, 0x5a, 0xf4] ++
  [0x1f, 0xdd, 0xa8, 0x33, 0x88, 0x07, 0xc7, 0x31, 0xb1, 0x12, 0x10, 0x59, 0x27, 0x80, 0xec, 0x5f] ++
  [0x60, 0x51, 0x7f, 0xa9, 0x19, 0xb5, 0x4a, 0x0d, 0x2d, 0xe5, 0x7a, 0x9f, 0x93, 0xc9, 0x9c, 0xef] ++
  [0xa0, 0xe0, 0x3b, 0x4d, 0xae, 0x2a, 0xf5, 0xb0, 0xc8, 0xeb, 0xbb, 0x3c, 0x83, 0x53, 0x99, 0x61] ++
  [0x17, 0x2b, 0x04, 0x7e, 0xba, 0x77, 0xd6, 0x26, 0xe1, 0x69, 0x14, 0x63, 0x55, 0x21, 0x0c, 0x7d]

end Sys2Proof.Claims

open Sys2Proof Sys2Proof.Machine Sys2Proof.Claims

/-! ## Reset -/

/-- 70_reset_and_hazards.md R282. -/
def Obligations.ResetIsMaskedIdleAndKeyless : Prop :=
  State.reset.irqEn = false ∧ State.reset.busy = false ∧ State.reset.done = false ∧ keyValid State.reset = false ∧
    State.reset.schedValid = false ∧ State.reset.errCode = .ok ∧ statusWord State.reset = 0#32 ∧
    irq State.reset = false

/-- The reset event, from any state (70_reset_and_hazards.md section 1). That the unspecified contents are drawn anew by
`epoch` is the model's choice (log entries 3, 4, 5, 15). -/
def Obligations.ResetEventRestoresResetValues : Prop :=
  ∀ (s : State) (rest : List Event), s.agenda = .reset :: rest → ∃ t, step s = .next t ∧
    t.cmd = 0#32 ∧ statusWord t = 0#32 ∧ ctrlWord t = 0#32 ∧ t.len = 0#32 ∧ t.outLen = 0#32 ∧ t.opa = 0#32 ∧
    t.opb = 0#32 ∧ t.res = 0#32 ∧ (∀ k : Fin 4, t.key[k] = 0#32 ∧ t.blk[k] = 0#32) ∧ t.kwm = 0#4 ∧
    irq t = false ∧ t.agenda = rest ∧ t.unpadWindow = s.unpadWindow ∧
    (∀ i : Fin 44, (schedWords t)[i] = unsetWord (s.epoch + 1) (0x040 + 4 * i.val)) ∧
    (∀ x : Byte, sboxAt t x = Config.unsetByte (s.epoch + 1) (0x100 + x.toNat) ∧
      invSboxAt t x = Config.unsetByte (s.epoch + 1) (0x200 + x.toNat)) ∧
    ∀ a : Nat, memByte t a = Config.unsetByte (s.epoch + 1) a

/-! ## The tables -/

/-- 41_sbox.md R132, R133: the generation step, the engine's next turn while SBOX_READY = 0. It changes nothing but the
tables and SBOX_READY; in particular a pending command stays pending (R135). -/
def Obligations.GenerationWritesBothTables : Prop :=
  ∀ (s : State) (rest : List Event), engineTurn s rest → s.sboxReady = false → ∃ t, step s = .next t ∧
    t = { s with agenda := rest, sboxReady := true, sbox := t.sbox, invSbox := t.invSbox } ∧
    (∀ x : Byte, sboxAt t x = ginv x ^^^ (ginv x).rotateLeft 1 ^^^ (ginv x).rotateLeft 2 ^^^ (ginv x).rotateLeft 3 ^^^
      (ginv x).rotateLeft 4 ^^^ 0x63#8) ∧
    ∀ x : Byte, invSboxAt t (sboxAt t x) = x

/-- 41_sbox.md R136, R137: the generated tables are the printed ones. -/
def Obligations.GeneratedTablesAreThePrintedOnes : Prop :=
  ∀ (s : State) (x : Byte), some (sboxAt (generate s) x) = printedSbox[x.toNat]? ∧
    some (invSboxAt (generate s) x) = printedInvSbox[x.toNat]?

/-- 41_sbox.md R138. -/
def Obligations.GeneratedTablesAreMutuallyInverse : Prop :=
  ∀ s : State, (∀ x : Byte, invSboxAt (generate s) (sboxAt (generate s) x) = x ∧
      sboxAt (generate s) (invSboxAt (generate s) x) = x ∧ sboxAt (generate s) x ≠ x ∧
      sboxAt (generate s) x ≠ x ^^^ 0xff#8) ∧
    sboxAt (generate s) 0x00#8 = 0x63#8 ∧ sboxAt (generate s) 0x01#8 = 0x7c#8 ∧
    sboxAt (generate s) 0x53#8 = 0xed#8 ∧ sboxAt (generate s) 0xff#8 = 0x16#8 ∧
    invSboxAt (generate s) 0x63#8 = 0x00#8 ∧ invSboxAt (generate s) 0x00#8 = 0x52#8

/-- 41_sbox.md R131: `ginv` is the multiplicative inverse, 0 mapped to 0. -/
def Obligations.GinvIsTheUniqueInverse : Prop :=
  ginv 0x00#8 = 0x00#8 ∧
    ∀ x : Byte, x ≠ 0x00#8 → gmul x (ginv x) = 0x01#8 ∧ ∀ y : Byte, gmul x y = 0x01#8 → y = ginv x

/-- 41_sbox.md R140, R141, with the tables in place (R135). -/
def Obligations.LookupCommandsReadTheTables : Prop :=
  encode .sboxLookup = 0x00000020#32 ∧ encode .invSboxLookup = 0x00000021#32 ∧
    (∀ s : State, tablesReady s →
      exec .sboxLookup s = .next (successEnd { s with res := (affine (ginv (s.opa.setWidth 8))).setWidth 32 }) ∧
      ∃ y : Byte, affine (ginv y) = s.opa.setWidth 8 ∧
        exec .invSboxLookup s = .next (successEnd { s with res := y.setWidth 32 })) ∧
    affine (ginv 0x00#8) = 0x63#8 ∧ affine (ginv 0x53#8) = 0xed#8 ∧ affine (ginv 0x52#8) = 0x00#8

/-- 41_sbox.md R139: the table windows after generation, and draws before it. -/
def Obligations.TableWindowsReadFourEntries : Prop :=
  ∀ (s : State) (rest : List Event) (k : Nat), k < 64 → s.busy = false →
    (hostReads s rest (0x100 + 4 * k) → step s = .next (if s.sboxReady then
        returned s rest (sboxAt s (BitVec.ofNat 8 (4 * k)) ++ sboxAt s (BitVec.ofNat 8 (4 * k + 1)) ++
          sboxAt s (BitVec.ofNat 8 (4 * k + 2)) ++ sboxAt s (BitVec.ofNat 8 (4 * k + 3)))
      else answered s rest)) ∧
    (hostReads s rest 0x100 → tablesReady s → step s = .next (returned s rest 0x637c777b#32)) ∧
    (hostReads s rest (0x200 + 4 * k) → step s = .next (if s.sboxReady then
        returned s rest (invSboxAt s (BitVec.ofNat 8 (4 * k)) ++ invSboxAt s (BitVec.ofNat 8 (4 * k + 1)) ++
          invSboxAt s (BitVec.ofNat 8 (4 * k + 2)) ++ invSboxAt s (BitVec.ofNat 8 (4 * k + 3)))
      else answered s rest))

/-! ## Galois field -/

/-- 40_galois_field.md R111: multiplication modulo x^8 + x^4 + x^3 + x + 1; the product has one reduced value only. -/
def Obligations.GmulIsProductModulo11B : Prop :=
  ∀ a b r : Byte, gmul a b = r ↔ ∃ q : BitVec 7,
    clmul (a.setWidth 16) (b.setWidth 16) = r.setWidth 16 ^^^ clmul 0x011B#16 (q.setWidth 16)

/-- 40_galois_field.md R114. -/
def Obligations.FieldLawsHold : Prop :=
  (∀ a : Byte, gmul a 0x00#8 = 0x00#8 ∧ gmul a 0x01#8 = a) ∧ (∀ a b : Byte, gmul a b = gmul b a) ∧
    (∀ a : Byte, a ≠ 0x00#8 → ∃ y : Byte, gmul a y = 0x01#8 ∧ ∀ z : Byte, gmul a z = 0x01#8 → z = y) ∧
    (∀ a b : AesWord, coefMult a b = coefMult b a) ∧
    ∀ b : AesWord, coefMult ⟨0x02#8, 0x01#8, 0x01#8, 0x03#8⟩ (coefMult ⟨0x0e#8, 0x09#8, 0x0d#8, 0x0b#8⟩ b) = b

/-- 40_galois_field.md R115, R116, R117. -/
def Obligations.ByteFieldCommandsWriteRes : Prop :=
  encode .gfAdd = 0x00000010#32 ∧ encode .gfSub = 0x00000011#32 ∧ encode .gfMult = 0x00000012#32 ∧
    (∀ s : State,
      exec .gfAdd s = .next (successEnd { s with res := (s.opa ^^^ s.opb) &&& 0x000000FF#32 }) ∧
      exec .gfSub s = .next (successEnd { s with res := (s.opa ^^^ s.opb) &&& 0x000000FF#32 }) ∧
      exec .gfMult s =
        .next (successEnd { s with res := (gmul (s.opa.setWidth 8) (s.opb.setWidth 8)).setWidth 32 })) ∧
    (∀ a : Byte, gmul a 0x00#8 = 0x00#8 ∧ gmul a 0x01#8 = a) ∧ gmul 0x80#8 0x02#8 = 0x1b#8 ∧
    gmul 0x57#8 0x83#8 = 0xc1#8

/-- 40_galois_field.md R118, R119. -/
def Obligations.WordFieldCommandsWriteRes : Prop :=
  encode .coefAdd = 0x00000013#32 ∧ encode .coefMult = 0x00000014#32 ∧
    (∀ s : State, exec .coefAdd s = .next (successEnd { s with res := s.opa ^^^ s.opb })) ∧
    (∀ (s : State) (a0 a1 a2 a3 b0 b1 b2 b3 : Byte), s.opa = a0 ++ a1 ++ a2 ++ a3 → s.opb = b0 ++ b1 ++ b2 ++ b3 →
      exec .coefMult s = .next (successEnd { s with res :=
        (gmul a0 b0 ^^^ gmul a3 b1 ^^^ gmul a2 b2 ^^^ gmul a1 b3) ++
        (gmul a1 b0 ^^^ gmul a0 b1 ^^^ gmul a3 b2 ^^^ gmul a2 b3) ++
        (gmul a2 b0 ^^^ gmul a1 b1 ^^^ gmul a0 b2 ^^^ gmul a3 b3) ++
        (gmul a3 b0 ^^^ gmul a2 b1 ^^^ gmul a1 b2 ^^^ gmul a0 b3) })) ∧
    (∀ s : State, s.opb = 0x01000000#32 → exec .coefMult s = .next (successEnd { s with res := s.opa })) ∧
    (∀ s : State, s.opb = 0x00010000#32 → exec .coefMult s = .next (successEnd { s with res := s.opa.rotateRight 8 })) ∧
    (∀ s : State, s.opa = 0x02010103#32 → s.opb = 0xdb135345#32 →
      exec .coefMult s = .next (successEnd { s with res := 0x8e4da1bc#32 })) ∧
    ∀ s t : State, t.opa = s.opb → t.opb = s.opa →
      ∃ u v, exec .coefMult s = .next u ∧ exec .coefMult t = .next v ∧ u.res = v.res

/-! ## Key schedule -/

/-- 42_key_schedule.md R151: the round constants, and `Rcon(i) = [rc(i), 0, 0, 0]` as the word index `4i` adds it. -/
def Obligations.RoundConstantsDouble : Prop :=
  (∀ (sb : Byte → Byte) (i : Nat) (t : AesWord), 1 ≤ i →
    schedTemp sb (4 * i) t = coefAdd ⟨sb t.b1, sb t.b2, sb t.b3, sb t.b0⟩ ⟨rc i, 0x00#8, 0x00#8, 0x00#8⟩) ∧
  rc 1 = 0x01#8 ∧ (∀ i : Nat, 2 ≤ i → rc i = gmul (rc (i - 1)) 0x02#8) ∧
    [rc 1, rc 2, rc 3, rc 4, rc 5, rc 6, rc 7, rc 8, rc 9, rc 10] =
      [0x01#8, 0x02#8, 0x04#8, 0x08#8, 0x10#8, 0x20#8, 0x40#8, 0x80#8, 0x1b#8, 0x36#8]

/-- 42_key_schedule.md R150, R152, R153, R154: the expansion through any table, in register words; KEY_EXPAND expands
KEY0..KEY3 through SBOX. -/
def Obligations.ExpansionFollowsTheRecurrence : Prop :=
  (∀ s : State, keyValid s = true →
    ∃ t, exec .keyExpand s = .next t ∧ schedWords t = expandKey (sboxAt s) s.key) ∧
  ∀ (sb : Byte → Byte) (key : Vector Word 4),
    (∀ (i : Nat) (h : i < 4), (expandKey sb key)[i] = key[i]) ∧
    ∀ (i : Nat) (h : i < 44), 4 ≤ i →
      (expandKey sb key)[i] = (expandKey sb key)[i - 4] ^^^
        (if i % 4 = 0 then
          subWordReg sb ((expandKey sb key)[i - 1].rotateLeft 8) ^^^ ((rc (i / 4)).setWidth 32 <<< 24)
        else (expandKey sb key)[i - 1])

/-- KEY_EXPAND (42_key_schedule.md section 2): it writes the schedule of the key, a second run changes nothing, SCHED0..3
are the key, and without a key it fails with NO_KEY and writes nothing. -/
def Obligations.KeyExpandFillsTheSchedule : Prop :=
  encode .keyExpand = 0x00000030#32 ∧
    (∀ s : State, keyValid s = true →
      exec .keyExpand s = .next (successEnd (withSchedule s)) ∧
      exec .keyExpand (successEnd (withSchedule s)) = .next (successEnd (withSchedule s)) ∧
      schedWords (successEnd (withSchedule s)) = expandKey (sboxAt s) s.key ∧
      ∀ k : Fin 4, (expandKey (sboxAt s) s.key)[k.val] = s.key[k]) ∧
    ∀ s : State, keyValid s = false → exec .keyExpand s = .next (errorEnd .noKey s)

/-! ## Round operations -/

/-- 43_round_ops.md R172, R176: SUB_BYTES and INV_SUB_BYTES. -/
def Obligations.SubstitutionCommandsMapEveryByte : Prop :=
  ∀ s : State,
    (∃ t, exec .subBytes s = .next t ∧ t = successEnd { s with blk := t.blk } ∧
      ∀ r c : Fin 4, byteAt t r c = sboxAt s (byteAt s r c)) ∧
    ∃ t, exec .invSubBytes s = .next t ∧ t = successEnd { s with blk := t.blk } ∧
      ∀ r c : Fin 4, byteAt t r c = invSboxAt s (byteAt s r c)

/-- 43_round_ops.md R173, R177: SHIFT_ROWS and INV_SHIFT_ROWS; `c + r` is taken modulo 4. -/
def Obligations.ShiftCommandsRotateRows : Prop :=
  ∀ s : State,
    (∃ t, exec .shiftRows s = .next t ∧ t = successEnd { s with blk := t.blk } ∧
      ∀ r c : Fin 4, byteAt t r c = byteAt s r (c + r)) ∧
    ∃ t, exec .invShiftRows s = .next t ∧ t = successEnd { s with blk := t.blk } ∧
      ∀ r c : Fin 4, byteAt t r (c + r) = byteAt s r c

/-- 43_round_ops.md R174, R178: MIX_COLUMNS and INV_MIX_COLUMNS, written out. -/
def Obligations.MixCommandsMultiplyColumns : Prop :=
  ∀ s : State,
    (∃ t, exec .mixColumns s = .next t ∧ t = successEnd { s with blk := t.blk } ∧ ∀ c : Fin 4,
      byteAt t 0 c = gmul 0x02#8 (byteAt s 0 c) ^^^ gmul 0x03#8 (byteAt s 1 c) ^^^ byteAt s 2 c ^^^ byteAt s 3 c ∧
      byteAt t 1 c = byteAt s 0 c ^^^ gmul 0x02#8 (byteAt s 1 c) ^^^ gmul 0x03#8 (byteAt s 2 c) ^^^ byteAt s 3 c ∧
      byteAt t 2 c = byteAt s 0 c ^^^ byteAt s 1 c ^^^ gmul 0x02#8 (byteAt s 2 c) ^^^ gmul 0x03#8 (byteAt s 3 c) ∧
      byteAt t 3 c = gmul 0x03#8 (byteAt s 0 c) ^^^ byteAt s 1 c ^^^ byteAt s 2 c ^^^ gmul 0x02#8 (byteAt s 3 c)) ∧
    ∃ t, exec .invMixColumns s = .next t ∧ t = successEnd { s with blk := t.blk } ∧ ∀ c : Fin 4,
      byteAt t 0 c = gmul 0x0e#8 (byteAt s 0 c) ^^^ gmul 0x0b#8 (byteAt s 1 c) ^^^ gmul 0x0d#8 (byteAt s 2 c) ^^^
        gmul 0x09#8 (byteAt s 3 c) ∧
      byteAt t 1 c = gmul 0x09#8 (byteAt s 0 c) ^^^ gmul 0x0e#8 (byteAt s 1 c) ^^^ gmul 0x0b#8 (byteAt s 2 c) ^^^
        gmul 0x0d#8 (byteAt s 3 c) ∧
      byteAt t 2 c = gmul 0x0d#8 (byteAt s 0 c) ^^^ gmul 0x09#8 (byteAt s 1 c) ^^^ gmul 0x0e#8 (byteAt s 2 c) ^^^
        gmul 0x0b#8 (byteAt s 3 c) ∧
      byteAt t 3 c = gmul 0x0b#8 (byteAt s 0 c) ^^^ gmul 0x0d#8 (byteAt s 1 c) ^^^ gmul 0x09#8 (byteAt s 2 c) ^^^
        gmul 0x0e#8 (byteAt s 3 c)

/-- ADD_ROUND_KEY (43_round_ops.md section 3): `STATE[c] <- STATE[c] ^ SCHED[4k + c]`; NO_SCHED without a schedule; a
round index over 10 is ILLEGAL_CMD (log entry 12). -/
def Obligations.AddRoundKeyAddsTheSlice : Prop :=
  (∀ (s : State) (k : BitVec 4) (hk : k.toNat ≤ 10), s.schedValid = true →
    exec (.addRoundKey k) s = .next (successEnd { s with blk := #v[
      s.blk[0] ^^^ (schedWords s)[4 * k.toNat], s.blk[1] ^^^ (schedWords s)[4 * k.toNat + 1],
      s.blk[2] ^^^ (schedWords s)[4 * k.toNat + 2], s.blk[3] ^^^ (schedWords s)[4 * k.toNat + 3]] })) ∧
  (∀ (s : State) (k : BitVec 4), k.toNat ≤ 10 → s.schedValid = false →
    exec (.addRoundKey k) s = .next (errorEnd .noSched s)) ∧
  ∀ (s : State) (k : BitVec 4), 10 < k.toNat → exec (.addRoundKey k) s = .next (errorEnd .illegalCmd s)

/-- 43_round_ops.md R179, on the commands. -/
def Obligations.RoundCommandsUndoEachOther : Prop :=
  (∀ s : State, tablesReady s → ∃ t, runAll [.subBytes, .invSubBytes] s = .next t ∧ t.blk = s.blk) ∧
    (∀ s : State, ∃ t, runAll [.shiftRows, .invShiftRows] s = .next t ∧ t.blk = s.blk) ∧
    (∀ s : State, ∃ t, runAll [.mixColumns, .invMixColumns] s = .next t ∧ t.blk = s.blk) ∧
    (∀ (s : State) (k : BitVec 4), k.toNat ≤ 10 → s.schedValid = true →
      ∃ t, runAll [.addRoundKey k, .addRoundKey k] s = .next t ∧ t.blk = s.blk) ∧
    ∀ s : State, runAll [.subBytes, .shiftRows] s = runAll [.shiftRows, .subBytes] s ∧
      runAll [.subBytes, .invShiftRows] s = runAll [.invShiftRows, .subBytes] s ∧
      runAll [.invSubBytes, .shiftRows] s = runAll [.shiftRows, .invSubBytes] s ∧
      runAll [.invSubBytes, .invShiftRows] s = runAll [.invShiftRows, .invSubBytes] s

/-! ## Block cipher -/

/-- 44_block_cipher.md R200, R201: the block commands are the pipelines of the round commands. -/
def Obligations.BlockCommandsAreTheirRounds : Prop :=
  ∀ s : State, s.schedValid = true →
    (∃ t, exec .encryptBlock s = .next t ∧ t = successEnd { s with blk := t.blk } ∧
      runAll (.addRoundKey 0 :: encryptRounds ++ [.subBytes, .shiftRows, .addRoundKey 10]) s = .next t) ∧
    ∃ t, exec .decryptBlock s = .next t ∧ t = successEnd { s with blk := t.blk } ∧
      runAll (.addRoundKey 10 :: decryptRounds ++ [.invShiftRows, .invSubBytes, .addRoundKey 0]) s = .next t

/-- 44_block_cipher.md R203: DECRYPT_BLOCK after ENCRYPT_BLOCK restores STATE, and the other way round; the schedule may
be any, so it may be that of any key. -/
def Obligations.BlockCommandsUndoEachOther : Prop :=
  ∀ s : State, tablesReady s → s.schedValid = true →
    (∃ t, runAll [.encryptBlock, .decryptBlock] s = .next t ∧ t.blk = s.blk) ∧
    ∃ t, runAll [.decryptBlock, .encryptBlock] s = .next t ∧ t.blk = s.blk

/-- The block commands without a schedule (44_block_cipher.md section 2): NO_SCHED, STATE unchanged. -/
def Obligations.BlockCommandsNeedASchedule : Prop :=
  ∀ s : State, s.schedValid = false →
    exec .encryptBlock s = .next (errorEnd .noSched s) ∧ exec .decryptBlock s = .next (errorEnd .noSched s)

/-! ## ECB codec -/

/-- 45_ecb_codec.md R220 to R223: ECB_ENCRYPT; `paddedBlock s b` is chunk `b` with its padding. -/
def Obligations.EcbEncryptWritesPaddedBlocks : Prop :=
  ∀ s : State, keyValid s = true → 1 ≤ s.len.toNat → s.len.toNat ≤ 4096 →
    ∃ t, exec .ecbEncrypt s = .next t ∧
      t = successEnd { withSchedule s with mem := t.mem, outLen := t.outLen } ∧
      t.outLen.toNat = 16 * ((s.len.toNat + 15) / 16) ∧
      t.outLen.toNat =
        (if s.len.toNat % 16 = 0 then s.len.toNat else s.len.toNat + (16 - s.len.toNat % 16)) ∧
      t.outLen.toNat ≤ 4096 ∧
      (∀ b : Nat, b < (s.len.toNat + 15) / 16 → memBytes t (outBufBase + 16 * b) 16 =
        storeState (cipher (sboxAt s) (expandKey (sboxAt s) s.key) (loadState (paddedBlock s b)))) ∧
      (s.len.toNat % 16 ≠ 0 → 1 ≤ t.outLen.toNat - s.len.toNat ∧ t.outLen.toNat - s.len.toNat ≤ 15) ∧
      ∀ a : Nat, a < outBufBase ∨ outBufBase + 16 * ((s.len.toNat + 15) / 16) ≤ a → memByte t a = memByte s a

/-- 45_ecb_codec.md R226: ECB_DECRYPT and ECB_DECRYPT_RAW. -/
def Obligations.EcbDecryptsWriteRawBlocks : Prop :=
  ∀ s : State, keyValid s = true → 1 ≤ s.len.toNat → s.len.toNat ≤ 4096 → s.len.toNat % 16 = 0 →
    ∃ t u, exec .ecbDecrypt s = .next t ∧ exec .ecbDecryptRaw s = .next u ∧
      t = successEnd { withSchedule s with mem := t.mem, outLen := t.outLen } ∧
      u = successEnd { withSchedule s with mem := t.mem, outLen := s.len } ∧
      t.outLen.toNat = unpadLen s.unpadWindow.val (memBytes t outBufBase s.len.toNat) ∧
      (∀ b : Nat, b < s.len.toNat / 16 → memBytes t (outBufBase + 16 * b) 16 =
        storeState (invCipher (invSboxAt s) (expandKey (sboxAt s) s.key)
          (loadState (memBytes s (inBufBase + 16 * b) 16)))) ∧
      ∀ a : Nat, a < outBufBase ∨ outBufBase + s.len.toNat ≤ a → memByte t a = memByte s a

/-- 45_ecb_codec.md R224, for every window 1..16 (the machine's is a parameter of the state, log entry 9), and its consequences for the decided window 16. -/
def Obligations.UnpadStripsARunOfItsOwnLength : Prop :=
  (∀ (window : Nat) (x : List Byte) (v : Byte) (run : Nat), 1 ≤ window → window ≤ 16 → 16 ≤ x.length →
      x[x.length - 1]? = some v → 1 ≤ run → run ≤ x.length →
      (∀ j : Nat, j < run → x[x.length - 1 - j]? = some v) →
      (run < x.length → x[x.length - 1 - run]? ≠ some v) →
      unpadLen window x = if min run window = v.toNat then x.length - v.toNat else x.length) ∧
    ∀ (x : List Byte) (v : Byte), 16 ≤ x.length → x[x.length - 1]? = some v →
      (v = 0x00#8 → unpadLen 16 x = x.length) ∧ (16 < v.toNat → unpadLen 16 x = x.length) ∧
      (unpadLen 16 x = x.length ∨ unpadLen 16 x = x.length - v.toNat) ∧
      x.length - 16 ≤ unpadLen 16 x ∧ unpadLen 16 x ≤ x.length ∧
      (v = 0x03#8 → x[x.length - 2]? = some v → x[x.length - 3]? = some v → x[x.length - 4]? = some v →
        unpadLen 16 x = x.length) ∧
      ((∀ j : Nat, j < 16 → x[x.length - 1 - j]? = some 0x10#8) → unpadLen 16 x = x.length - 16)

/-- The errors of the ECB commands and their order (45_ecb_codec.md section 2, 60_exceptions.md section 1): NO_KEY before
BAD_LEN, OUT_LEN cleared, nothing else changed. -/
def Obligations.EcbCommandsCheckKeyThenLength : Prop :=
  (∀ s : State, keyValid s = false →
      exec .ecbEncrypt s = .next (errorEnd .noKey { s with outLen := 0#32 }) ∧
      exec .ecbDecrypt s = .next (errorEnd .noKey { s with outLen := 0#32 }) ∧
      exec .ecbDecryptRaw s = .next (errorEnd .noKey { s with outLen := 0#32 })) ∧
    (∀ s : State, keyValid s = true → s.len = 0#32 ∨ 4096 < s.len.toNat →
      exec .ecbEncrypt s = .next (errorEnd .badLen { s with outLen := 0#32 })) ∧
    ∀ s : State, keyValid s = true → s.len = 0#32 ∨ 4096 < s.len.toNat ∨ s.len.toNat % 16 ≠ 0 →
      exec .ecbDecrypt s = .next (errorEnd .badLen { s with outLen := 0#32 }) ∧
      exec .ecbDecryptRaw s = .next (errorEnd .badLen { s with outLen := 0#32 })

/-- 45_ecb_codec.md R231: a plaintext of `n` bytes encrypted in `s`, its ciphertext as the input of a state `s2` with
the same key. `p` is the plaintext, `v` the pad value and `w` the window of the unpad heuristic. R231 is for the decided
window 16 (log entry 9); the clause for the other windows is read from R224. -/
def Obligations.EcbRoundTripGivesThePaddedPlaintext : Prop :=
  ∀ s t s2 : State, tablesReady s → keyValid s = true → 1 ≤ s.len.toNat → s.len.toNat ≤ 4096 →
    exec .ecbEncrypt s = .next t →
    tablesReady s2 → keyValid s2 = true → s2.key = s.key → s2.len = t.outLen →
    memBytes s2 inBufBase s2.len.toNat = memBytes t outBufBase t.outLen.toNat →
    ∃ p : List Byte, p = memBytes s inBufBase s.len.toNat ∧
    ∃ v : Nat, v = 16 - s.len.toNat % 16 ∧
    (∃ u, exec .ecbDecryptRaw s2 = .next u ∧ memBytes u outBufBase u.outLen.toNat =
      if s.len.toNat % 16 = 0 then p else p ++ List.replicate v (BitVec.ofNat 8 v)) ∧
    ∃ u, exec .ecbDecrypt s2 = .next u ∧
      ∃ w : Nat, w = s2.unpadWindow.val ∧
      (w = 16 → s.len.toNat % 16 ≠ 0 → (u.outLen.toNat = s.len.toNat ↔ p.getLast? ≠ some (BitVec.ofNat 8 v)) ∧
        (p.getLast? = some (BitVec.ofNat 8 v) → u.outLen.toNat = 16 * ((s.len.toNat + 15) / 16))) ∧
      (w < 16 → s.len.toNat % 16 ≠ 0 → u.outLen.toNat =
        if v ≤ w ∧ (p.getLast? ≠ some (BitVec.ofNat 8 v) ∨ w = v) then s.len.toNat
        else 16 * ((s.len.toNat + 15) / 16)) ∧
      (s.len.toNat % 16 = 0 → u.outLen.toNat = unpadLen w p)

/-- 20_memory.md section 3: an ECB command depends on no input byte at or beyond LEN. -/
def Obligations.EcbCommandsReadOnlyTheirInput : Prop :=
  ∀ (i : Instr) (s s' t t' : State), family i = 6 → s'.key = s.key → s'.kwm = s.kwm → s'.len = s.len →
    s'.unpadWindow = s.unpadWindow →
    (∀ x : Byte, sboxAt s' x = sboxAt s x ∧ invSboxAt s' x = invSboxAt s x) →
    (∀ j : Nat, j < s.len.toNat → memByte s' (inBufBase + j) = memByte s (inBufBase + j)) →
    exec i s = .next t → exec i s' = .next t' →
    t'.outLen = t.outLen ∧ t'.errCode = t.errCode ∧
      (t.errCode = .ok → t'.sched = t.sched ∧ ∀ j : Nat, j < 16 * ((s.len.toNat + 15) / 16) →
        memByte t' (outBufBase + j) = memByte t (outBufBase + j))

/-! ## Encoding -/

/-- Decoding the word of a well-formed command gives the command back. -/
def Obligations.DecodeOfEncodeIsTheCommand : Prop :=
  ∀ i : Instr, i.wf = true → decode (encode i) = .ok i

/-- 30_encoding.md R92: which words are valid, each for one command only; any other pending word completes with
ILLEGAL_CMD. -/
def Obligations.ValidWordsAreExactlyTheEncodings : Prop :=
  (∀ c : Word, validCommand c = true ↔
    c.toNat % 256 ∈ [0x10, 0x11, 0x12, 0x13, 0x14, 0x20, 0x21, 0x30, 0x40, 0x41, 0x42, 0x43, 0x44, 0x45, 0x46, 0x50,
      0x51, 0x60, 0x61, 0x62] ∧ c.toNat / 4096 = 0 ∧
    (c.toNat % 256 = 0x43 ∧ c.toNat / 256 % 16 ≤ 10 ∨ c.toNat % 256 ≠ 0x43 ∧ c.toNat / 256 % 16 = 0)) ∧
  (∀ (c : Word) (i : Instr), decode c = .ok i → i.wf = true ∧ encode i = c) ∧
  ∀ (s : State) (rest : List Event), engineTurn s rest → s.sboxReady = true → s.busy = true →
    validCommand s.cmd = false → ∃ t, step s = .next t ∧ t.errCode = .illegalCmd ∧ t.busy = false ∧ t.done = true

/-- 30_encoding.md R93: the words of the opcode map, and the families. -/
def Obligations.OpcodeMapWordsDecode : Prop :=
  (∀ r : BitVec 4, r.toNat ≤ 10 → decode (0#20 ++ r ++ 0x43#8) = .ok (.addRoundKey r)) ∧
    (∀ i : Instr, family i ∈ [1, 2, 3, 4, 5, 6]) ∧
  decode 0x00000010#32 = .ok .gfAdd ∧ decode 0x00000011#32 = .ok .gfSub ∧ decode 0x00000012#32 = .ok .gfMult ∧
    decode 0x00000013#32 = .ok .coefAdd ∧ decode 0x00000014#32 = .ok .coefMult ∧
    decode 0x00000020#32 = .ok .sboxLookup ∧ decode 0x00000021#32 = .ok .invSboxLookup ∧
    decode 0x00000030#32 = .ok .keyExpand ∧ decode 0x00000040#32 = .ok .subBytes ∧
    decode 0x00000041#32 = .ok .shiftRows ∧ decode 0x00000042#32 = .ok .mixColumns ∧
    decode 0x00000043#32 = .ok (.addRoundKey 0) ∧ decode 0x00000a43#32 = .ok (.addRoundKey 10) ∧
    decode 0x00000044#32 = .ok .invSubBytes ∧ decode 0x00000045#32 = .ok .invShiftRows ∧
    decode 0x00000046#32 = .ok .invMixColumns ∧ decode 0x00000050#32 = .ok .encryptBlock ∧
    decode 0x00000051#32 = .ok .decryptBlock ∧ decode 0x00000060#32 = .ok .ecbEncrypt ∧
    decode 0x00000061#32 = .ok .ecbDecrypt ∧ decode 0x00000062#32 = .ok .ecbDecryptRaw

/-! ## The engine -/

/-- A step runs the decoded command (60_exceptions.md section 1). -/
def Obligations.StepRunsTheDecodedCommand : Prop :=
  ∀ (s : State) (rest : List Event) (i : Instr), engineTurn s rest → s.sboxReady = true → s.busy = true →
    decode s.cmd = .ok i → step s = exec i { s with agenda := rest }

/-- A step with nothing enabled: the engine waits (70_reset_and_hazards.md section 1; log entry 16). -/
def Obligations.EngineWaitsForACommand : Prop :=
  ∀ (s : State) (rest : List Event), engineTurn s rest → s.sboxReady = true → s.busy = false →
    step s = .next { s with agenda := rest }

/-- A placed word is what the very next step runs (the model's own, log entry 19). -/
def Obligations.PlacedWordRunsNext : Prop :=
  ∀ (s : State) (w : Nat) (i : Instr), w < 2 ^ 32 → decode (BitVec.ofNat 32 w) = .ok i →
    step (s.withFetchWord 32 w) = exec i { s.withFetchWord 32 w with agenda := s.agenda }

/-- 60_exceptions.md R251: every command completes in the one step it takes, and success leaves ERR_CODE = 0; and every
step of the machine has a next state. -/
def Obligations.EveryCommandCompletes : Prop :=
  (∀ (i : Instr) (s : State), ∃ t, exec i s = .next t ∧ t.busy = false ∧ t.done = true ∧
    (errFlag t = false ↔ t.errCode = .ok)) ∧
  ∀ s : State, ∃ t, step s = .next t

/-- 60_exceptions.md R252: an error changes BUSY, DONE and ERR_CODE, and OUT_LEN for the opcodes 0x60 to 0x62, and
nothing else, whether a check fails or the word is not valid. -/
def Obligations.ErrorsChangeNothingElse : Prop :=
  (∀ (i : Instr) (s t : State), exec i s = .next t → t.errCode ≠ .ok →
    errFlag t = true ∧ t = errorEnd t.errCode { s with outLen := if family i = 6 then 0#32 else s.outLen }) ∧
  ∀ (s : State) (rest : List Event), engineTurn s rest → s.sboxReady = true → s.busy = true →
    validCommand s.cmd = false → step s = .next (errorEnd .illegalCmd { s with
      agenda := rest
      outLen := if s.cmd.toNat % 256 ∈ [0x60, 0x61, 0x62] then 0#32 else s.outLen })

/-- No command changes an operand, the key, LEN, CMD, CTRL, OVERRUN, the tables, the port or the model's own fields
(10_state.md sections 2, 3 and 5). -/
def Obligations.CommandsKeepTheirOperands : Prop :=
  ∀ (i : Instr) (s t : State), exec i s = .next t →
    t.opa = s.opa ∧ t.opb = s.opb ∧ t.key = s.key ∧ t.kwm = s.kwm ∧ t.len = s.len ∧ t.cmd = s.cmd ∧
    t.irqEn = s.irqEn ∧ t.overrun = s.overrun ∧ t.sboxReady = s.sboxReady ∧ t.sbox = s.sbox ∧
    t.invSbox = s.invSbox ∧ t.resp = s.resp ∧ t.agenda = s.agenda ∧ t.epoch = s.epoch ∧ t.draws = s.draws ∧
    t.hostFault = s.hostFault ∧ t.unpadWindow = s.unpadWindow

/-- Which family writes which register (10_state.md section 2): RES families 1 and 2, STATE families 4 and 5, SCHED and
SCHED_VALID families 3 and 6, OUT_LEN and OUT_BUF family 6; no command stores outside OUT_BUF. -/
def Obligations.CommandsWriteOnlyTheirTargets : Prop :=
  ∀ (i : Instr) (s t : State), exec i s = .next t →
    (family i ≠ 1 ∧ family i ≠ 2 → t.res = s.res) ∧
    (family i ≠ 4 ∧ family i ≠ 5 → t.blk = s.blk) ∧
    (family i ≠ 3 ∧ family i ≠ 6 →
      t.sched = s.sched ∧ t.schedValid = s.schedValid ∧ t.schedWritten = s.schedWritten) ∧
    (family i ≠ 6 → t.outLen = s.outLen ∧ t.mem = s.mem) ∧
    ∀ a : Nat, a < outBufBase ∨ 0x3000 ≤ a → memByte t a = memByte s a

/-! ## The invariant -/

/-- The invariant holds after reset. -/
def Obligations.ResetMeetsTheInvariant : Prop := BlockInv State.reset

/-- Every step keeps the invariant: the memory's canonical form, the generated tables (10_state.md R42), SCHED_VALID only
with the schedule of the current key (R31, R38), BUSY and DONE never both set, OUT_LEN at most BUF_BYTES. -/
def Obligations.StepKeepsTheInvariant : Prop :=
  ∀ s t : State, BlockInv s → step s = .next t → BlockInv t

/-! ## The host port -/

/-- 10_state.md R25: an accepted write to KEY word `k`. -/
def Obligations.KeyWriteInvalidatesTheSchedule : Prop :=
  ∀ (s : State) (rest : List Event) (k : Fin 4) (v : Word), hostWrites s rest (0x020 + 4 * k.val) v → s.busy = false →
    ∃ t, step s = .next t ∧ t = { answered s rest with key := t.key, kwm := t.kwm, schedValid := false } ∧
      (∀ j : Fin 4, t.key[j] = if j = k then v else s.key[j]) ∧
      ∀ j : Nat, j < 4 → t.kwm.getLsbD j = (s.kwm.getLsbD j || decide (j = k.val))

/-- 10_state.md R37: KEY_VALID is KWM = 0b1111; a bit of KWM is set by an accepted write to its KEY word and by nothing
else, and cleared by the reset event only; without KEY_VALID a command that needs the key fails with NO_KEY. -/
def Obligations.KeyValidStaysUntilReset : Prop :=
  (∀ s : State, keyValid s = true ↔
    s.kwm.getLsbD 0 = true ∧ s.kwm.getLsbD 1 = true ∧ s.kwm.getLsbD 2 = true ∧ s.kwm.getLsbD 3 = true) ∧
  (∀ s t : State, step s = .next t → s.agenda.head? ≠ some .reset → ∀ k : Fin 4, t.kwm.getLsbD k.val = true ↔
    s.kwm.getLsbD k.val = true ∨ (s.busy = false ∧ ∃ rest v, hostWrites s rest (0x020 + 4 * k.val) v)) ∧
  (∀ (s t : State) (rest : List Event), step s = .next t → s.agenda = .reset :: rest → keyValid t = false) ∧
  ∀ (i : Instr) (s : State), i ∈ [.keyExpand, .ecbEncrypt, .ecbDecrypt, .ecbDecryptRaw] → keyValid s = false →
    ∃ t, exec i s = .next t ∧ t.errCode = .noKey

/-- 10_state.md R40: a write to STATUS, whatever BUSY is. -/
def Obligations.StatusWriteClearsDoneAndOverrun : Prop :=
  ∀ (s : State) (rest : List Event) (v : Word), hostWrites s rest 0x004 v →
    step s = .next { answered s rest with
      done := if v.getLsbD 1 then false else s.done, overrun := if v.getLsbD 3 then false else s.overrun }

/-- 10_state.md R31: the fields of STATUS. -/
def Obligations.StatusFieldsAreInPlace : Prop :=
  ∀ s : State, (statusWord s).getLsbD 0 = s.busy ∧ (statusWord s).getLsbD 1 = s.done ∧
    (statusWord s).getLsbD 2 = decide (s.errCode ≠ .ok) ∧ (statusWord s).getLsbD 3 = s.overrun ∧
    (statusWord s).getLsbD 4 = s.sboxReady ∧ (statusWord s).getLsbD 5 = keyValid s ∧
    (statusWord s).getLsbD 6 = s.schedValid ∧ (statusWord s).getLsbD 7 = false ∧
    (statusWord s).toNat / 256 ∈ [0, 1, 3, 4, 5] ∧
    ((statusWord s).toNat / 256 = 0 ↔ s.errCode = .ok) ∧ ((statusWord s).toNat / 256 = 1 ↔ s.errCode = .illegalCmd) ∧
    ((statusWord s).toNat / 256 = 3 ↔ s.errCode = .noKey) ∧ ((statusWord s).toNat / 256 = 4 ↔ s.errCode = .noSched) ∧
    ((statusWord s).toNat / 256 = 5 ↔ s.errCode = .badLen)

/-- 10_state.md R41: CTRL, whatever BUSY is. -/
def Obligations.CtrlHoldsTheInterruptEnable : Prop :=
  State.reset.irqEn = false ∧ (∀ s : State, s.irqEn = false → irq s = false) ∧ ∀ (s : State) (rest : List Event),
    (∀ v : Word, hostWrites s rest 0x008 v → step s = .next { answered s rest with irqEn := v.getLsbD 0 }) ∧
    (hostReads s rest 0x008 → step s = .next (returned s rest (if s.irqEn then 1#32 else 0#32)))

/-- 60_exceptions.md R257: the interrupt output, from the two registers the host reads. -/
def Obligations.InterruptIsEnableAndDone : Prop :=
  ∀ s : State, irq s = ((ctrlWord s).getLsbD 0 && (statusWord s).getLsbD 1)

/-- 20_memory.md R61: an illegal request changes no state of the block. That the record of the host's fault is a field of
the state is the model's choice (log entry 2); no step removes the record, and a recorded fault is no normal end. -/
def Obligations.IllegalRequestsGetAnErrorResponse : Prop :=
  (∀ (s : State) (r : Request) (rest : List Event), s.agenda = .access r :: rest →
    (r.size ≠ 4 ∨ r.addr.toNat % 4 ≠ 0) →
    step s = .next { s with agenda := rest, resp := some ⟨0#32, true⟩, hostFault := true }) ∧
  (∀ s t : State, step s = .next t → s.hostFault = true → t.hostFault = true) ∧
  ∀ s : State, s.hostFault = true → ¬ normalEnd s

/-- 20_memory.md R69 and the rest of the BUSY = 1 column of R65: writes while a command is pending. -/
def Obligations.BusyWritesAreDropped : Prop :=
  ∀ (s : State) (rest : List Event) (a : Nat) (v : Word), hostWrites s rest a v → s.busy = true →
    (a = 0x000 ∨ a = 0x00C ∨ a = 0x014 ∨ a = 0x018 ∨ (0x020 ≤ a ∧ a < 0x040) ∨ (0x1000 ≤ a ∧ a < 0x2000) →
      step s = .next { answered s rest with overrun := true }) ∧
    (a = 0x008 → step s = .next { answered s rest with irqEn := v.getLsbD 0 }) ∧
    (a = 0x004 → step s = .next { answered s rest with
      done := if v.getLsbD 1 then false else s.done, overrun := if v.getLsbD 3 then false else s.overrun }) ∧
    (a = 0x010 ∨ a = 0x01C ∨ (0x040 ≤ a ∧ a < 0x1000) ∨ 0x2000 ≤ a → step s = .next (answered s rest))

/-- 20_memory.md R70: reads while a command is pending; a draw is a free value. -/
def Obligations.BusyReadsAreDraws : Prop :=
  ∀ (s : State) (rest : List Event) (a : Nat), hostReads s rest a → s.busy = true →
    (a = 0x000 → step s = .next (returned s rest s.cmd)) ∧
    (a = 0x004 → step s = .next (returned s rest (statusWord s))) ∧
    (a = 0x008 → step s = .next (returned s rest (ctrlWord s))) ∧
    (0x00C ≤ a → step s = .next (answered s rest))

/-- 30_encoding.md R98: issue. -/
def Obligations.CommandWriteIssues : Prop :=
  ∀ (s : State) (rest : List Event) (c : Word), hostWrites s rest 0x000 c →
    (s.busy = false → step s = .next { answered s rest with cmd := c, busy := true, done := false }) ∧
    (s.busy = true → step s = .next { answered s rest with overrun := true })

/-- Reads of every register, of the buffers and of the reserved offsets while no command is pending (20_memory.md
section 2, 10_state.md section 1). -/
def Obligations.IdleReadsReturnTheMappedWord : Prop :=
  ∀ (s : State) (rest : List Event) (a : Nat), hostReads s rest a → s.busy = false →
    (a = 0x000 → step s = .next (returned s rest s.cmd)) ∧
    (a = 0x004 → step s = .next (returned s rest (statusWord s))) ∧
    (a = 0x00C → step s = .next (returned s rest s.len)) ∧
    (a = 0x010 → step s = .next (returned s rest s.outLen)) ∧
    (a = 0x014 → step s = .next (returned s rest s.opa)) ∧
    (a = 0x018 → step s = .next (returned s rest s.opb)) ∧
    (a = 0x01C → step s = .next (returned s rest s.res)) ∧
    (∀ k : Fin 4, a = 0x020 + 4 * k.val → step s = .next (returned s rest s.key[k])) ∧
    (∀ k : Fin 4, a = 0x030 + 4 * k.val → step s = .next (returned s rest s.blk[k])) ∧
    (∀ i : Fin 44, a = 0x040 + 4 * i.val → step s = .next (returned s rest (schedWords s)[i])) ∧
    ((0x1000 ≤ a ∧ a < 0x3000) → step s = .next (returned s rest
      (memByte s a ++ memByte s (a + 1) ++ memByte s (a + 2) ++ memByte s (a + 3)))) ∧
    ((0x0F0 ≤ a ∧ a < 0x100) ∨ (0x300 ≤ a ∧ a < 0x1000) ∨ 0x3000 ≤ a → step s = .next (returned s rest 0#32))

/-- Writes of the plain registers and of the read-only and reserved offsets while no command is pending (20_memory.md
section 2). -/
def Obligations.IdleWritesStoreOrAreIgnored : Prop :=
  ∀ (s : State) (rest : List Event) (a : Nat) (v : Word), hostWrites s rest a v → s.busy = false →
    (a = 0x00C → step s = .next { answered s rest with len := v }) ∧
    (a = 0x014 → step s = .next { answered s rest with opa := v }) ∧
    (a = 0x018 → step s = .next { answered s rest with opb := v }) ∧
    (∀ k : Fin 4, a = 0x030 + 4 * k.val → ∃ t, step s = .next t ∧ t = { answered s rest with blk := t.blk } ∧
      ∀ j : Fin 4, t.blk[j] = if j = k then v else s.blk[j]) ∧
    (a = 0x010 ∨ a = 0x01C ∨ (0x040 ≤ a ∧ a < 0x1000) ∨ 0x2000 ≤ a → step s = .next (answered s rest))

/-- Byte lanes (20_memory.md section 1): a word written to IN_BUF lands big-endian and reads back; every other byte is as
before. -/
def Obligations.InputWordsAreBigEndian : Prop :=
  ∀ (s : State) (rest : List Event) (a : Nat) (v : Word), hostWrites s rest a v → s.busy = false → 0x1000 ≤ a →
    a < 0x2000 → ∃ t, step s = .next t ∧ t = { answered s rest with mem := t.mem } ∧
      memByte t a = v.extractLsb' 24 8 ∧ memByte t (a + 1) = v.extractLsb' 16 8 ∧
      memByte t (a + 2) = v.extractLsb' 8 8 ∧ memByte t (a + 3) = v.extractLsb' 0 8 ∧ memWord t a = v ∧
      ∀ b : Nat, b < a ∨ a + 4 ≤ b → memByte t b = memByte s b

/-! ## Rules of the whole machine -/

/-- 10_state.md R32: an accepted CMD write sets BUSY and nothing else does; a completion or a reset clears it and nothing
else does; while a command is pending no other takes its place. -/
def Obligations.BusyIsSetByIssueAndClearedByCompletion : Prop :=
  (∀ (s : State) (rest : List Event) (c : Word), s.busy = false → hostWrites s rest 0x000 c →
    ∃ t, step s = .next t ∧ t.busy = true) ∧
  (∀ (i : Instr) (s t : State), exec i s = .next t → t.busy = false) ∧
  ∀ s t : State, step s = .next t →
    (s.busy = false → t.busy = true → ∃ rest c, hostWrites s rest 0x000 c ∧ t.cmd = c) ∧
    (s.busy = true → t.busy = true → t.cmd = s.cmd) ∧
    (s.busy = true → t.busy = false →
      s.agenda.head? = some .reset ∨ (s.sboxReady = true ∧ t.done = true ∧ ∃ rest, engineTurn s rest)) ∧
    (s.agenda.head? = some .reset → t.busy = false)

/-- 10_state.md R36: SBOX_READY is 0 after reset, the generation step sets it and nothing else changes it; the tables
never change while it is set (41_sbox.md section 1). -/
def Obligations.TablesAreFixedOnceReady : Prop :=
  State.reset.sboxReady = false ∧ ∀ s t : State, step s = .next t →
    (s.agenda.head? = some .reset → t.sboxReady = false) ∧
    (s.agenda.head? ≠ some .reset → (t.sboxReady = true ↔ s.sboxReady = true ∨ ∃ rest, engineTurn s rest)) ∧
    (s.sboxReady = true → t.sboxReady = true → t.sbox = s.sbox ∧ t.invSbox = s.invSbox)

/-- 10_state.md R35: OVERRUN after a step that is no reset: a write was dropped in it, or it was set and no write to
STATUS with bit 3 set cleared it. -/
def Obligations.OverrunIsStickyUntilCleared : Prop :=
  ∀ s t : State, step s = .next t → s.agenda.head? ≠ some .reset → (t.overrun = true ↔
    (s.busy = true ∧ ∃ rest a v, hostWrites s rest a v ∧
      (a = 0x000 ∨ a = 0x00C ∨ a = 0x014 ∨ a = 0x018 ∨ (0x020 ≤ a ∧ a < 0x040) ∨ (0x1000 ≤ a ∧ a < 0x2000))) ∨
    (s.overrun = true ∧ ¬ ∃ rest v, hostWrites s rest 0x004 v ∧ v.getLsbD 3 = true))

/-! ## The parameter -/

/-- UNPAD_WINDOW (00_scope.md section 4) is the decided 16 in the reset state, and no step changes it: a run has one
window, and the statements about every state hold for each window in 1..16. That a field of the state holds it is the
model's choice (log entry 9). -/
def Obligations.UnpadWindowIsFixed : Prop :=
  State.reset.unpadWindow.val = 16 ∧ ∀ s t : State, step s = .next t → t.unpadWindow = s.unpadWindow
end

