-- ==== Sys2Proof/Laws/Config.lean ====
section
/-! SUPPORT. The named parameters of 00_scope.md R7 are the sizes of the types that hold what they measure, and agree
with each other. -/

namespace Sys2Proof.Machine

theorem word_has_dataBits : Word = BitVec Config.dataBits := rfl

theorem request_addr_has_addrBits : ∀ r : Request, r.addr.toNat < 2 ^ Config.addrBits := fun r => r.addr.isLt

theorem key_has_nk_words (s : State) : s.key.toArray.size = Config.nk := s.key.size_toArray

theorem state_has_nb_words (s : State) : s.blk.toArray.size = Config.nb := s.blk.size_toArray

theorem sched_has_schedWords (s : State) : (schedWords s).toArray.size = Config.schedWords :=
  (schedWords s).size_toArray

theorem sbox_has_sboxEntries (s : State) : s.sbox.toArray.size = Config.sboxEntries := s.sbox.size_toArray

theorem invSbox_has_sboxEntries (s : State) : s.invSbox.toArray.size = Config.sboxEntries := s.invSbox.size_toArray

theorem storeState_has_blockBytes (x : AesState) : (storeState x).length = Config.blockBytes := rfl

theorem schedWords_eq : Config.schedWords = Config.nb * (Config.nr + 1) := rfl

theorem schedBytes_eq : Config.schedBytes = Config.dataBits / 8 * Config.schedWords := rfl

theorem keyBytes_eq : Config.keyBytes = Config.dataBits / 8 * Config.nk := rfl

theorem blockBytes_eq : Config.blockBytes = Config.dataBits / 8 * Config.nb := rfl

/-- Each buffer is BUF_BYTES long, a positive multiple of a block. -/
theorem bufBytes_spans : outBufBase = inBufBase + Config.bufBytes ∧ Config.bufBytes % Config.blockBytes = 0 ∧
    0 < Config.bufBytes := by decide

end Sys2Proof.Machine
end

