-- ==== Sys2Proof/Laws/Memory.lean ====
section
/-! SUPPORT. The laws of the buffers' memory: reading after writing, and the canonical form that every operation
keeps. -/

namespace Sys2Proof.Machine

@[simp] theorem Memory.read?_nil (a : Nat) : Memory.read? [] a = none := rfl

theorem Memory.read?_cons (c : Host.Cell) (m : Memory) (a : Nat) :
    Memory.read? (c :: m) a = if a = c.1 then some c.2 else Memory.read? m a := rfl

/-- A read after a write to the same offset gives the byte written. -/
@[simp] theorem Memory.read?_write_same (m : Memory) (a : Nat) (v : Byte) :
    Memory.read? (Memory.write m a v) a = some v := by
  induction m with
  | nil => simp [Memory.write, Memory.read?]
  | cons c m ih =>
    obtain ⟨b, w⟩ := c
    simp only [Memory.write]
    split
    · simp [Memory.read?]
    · split
      · simp [Memory.read?]
      · rename_i h
        simp [Memory.read?, h, ih]

/-- A write leaves every other offset alone. -/
theorem Memory.read?_write_other (m : Memory) (a : Nat) (v : Byte) (x : Nat) (h : x ≠ a) :
    Memory.read? (Memory.write m a v) x = Memory.read? m x := by
  induction m with
  | nil => simp [Memory.write, Memory.read?, h]
  | cons c m ih =>
    obtain ⟨b, w⟩ := c
    simp only [Memory.write]
    split
    · simp [Memory.read?, h]
    · split
      · rename_i hb
        subst hb
        simp [Memory.read?, h]
      · simp [Memory.read?, ih]

/-- The byte at an offset after a write. -/
theorem Memory.read?_write (m : Memory) (a : Nat) (v : Byte) (x : Nat) :
    Memory.read? (Memory.write m a v) x = if x = a then some v else Memory.read? m x := by
  split
  · rename_i h; subst h; simp
  · rename_i h; exact Memory.read?_write_other m a v x h

/-- Bytes stored at rising offsets read back in order, and every other offset is left alone. -/
theorem Memory.read?_writeBytes (m : Memory) (a : Nat) (vs : List Byte) (x : Nat) :
    Memory.read? (Memory.writeBytes m a vs) x =
      if h : a ≤ x ∧ x < a + vs.length then some (vs[x - a]'(by omega)) else Memory.read? m x := by
  induction vs generalizing m a with
  | nil =>
    have h : ¬ (a ≤ x ∧ x < a + ([] : List Byte).length) := by simp
    rw [dif_neg h]
    rfl
  | cons v vs ih =>
    simp only [Memory.writeBytes, ih, Memory.read?_write, List.length_cons]
    by_cases h1 : x = a
    · subst h1
      simp
    · by_cases h2 : a + 1 ≤ x ∧ x < a + 1 + vs.length
      · have h3 : a ≤ x ∧ x < a + (vs.length + 1) := by omega
        have h4 : x - a = (x - (a + 1)) + 1 := by omega
        simp [h2, h3, h4]
      · have h3 : ¬ (a ≤ x ∧ x < a + (vs.length + 1)) := by omega
        rw [dif_neg h2, dif_neg h3, if_neg h1]

/-- The listed offsets after a write: the old ones and the written one. -/
theorem Memory.mem_write (m : Memory) (a : Nat) (v : Byte) (c : Host.Cell) (hc : c ∈ Memory.write m a v) :
    c = (a, v) ∨ c ∈ m := by
  induction m with
  | nil => simpa [Memory.write] using hc
  | cons d m ih =>
    obtain ⟨b, w⟩ := d
    simp only [Memory.write] at hc
    split at hc
    · simpa using hc
    · split at hc
      · rcases List.mem_cons.1 hc with h | h
        · exact .inl h
        · exact .inr (List.mem_cons_of_mem _ h)
      · rcases List.mem_cons.1 hc with h | h
        · exact .inr (by simp [h])
        · exact (ih h).imp_right (List.mem_cons_of_mem _)

/-- A write keeps the offsets strictly rising. -/
theorem Memory.rising_write {m : Memory} (hm : List.Pairwise (fun c d : Host.Cell => c.1 < d.1) m) (a : Nat)
    (v : Byte) : List.Pairwise (fun c d : Host.Cell => c.1 < d.1) (Memory.write m a v) := by
  induction m with
  | nil => simp [Memory.write]
  | cons d m ih =>
    obtain ⟨b, w⟩ := d
    have hd := (List.pairwise_cons.1 hm).1
    have hp := (List.pairwise_cons.1 hm).2
    simp only [Memory.write]
    split
    · rename_i hab
      refine List.pairwise_cons.2 ⟨fun e he => ?_, hm⟩
      rcases List.mem_cons.1 he with rfl | he
      · exact hab
      · exact Nat.lt_trans hab (hd e he)
    · split
      · rename_i hab
        subst hab
        exact List.pairwise_cons.2 ⟨hd, hp⟩
      · rename_i h1 h2
        refine List.pairwise_cons.2 ⟨fun e he => ?_, ih hp⟩
        rcases Memory.mem_write m a v e he with rfl | he
        · show b < a
          omega
        · exact hd e he

/-- A write inside the buffers keeps the canonical form. -/
theorem Memory.wf_write {m : Memory} (hm : Memory.wf m) (a : Nat) (v : Byte) (ha : 0x1000 ≤ a ∧ a < 0x3000) :
    Memory.wf (Memory.write m a v) := by
  refine ⟨Memory.rising_write hm.1 a v, fun c hc => ?_⟩
  rcases Memory.mem_write m a v c hc with rfl | h
  · exact ha
  · exact hm.2 c h

/-- Storing bytes inside the buffers keeps the canonical form. -/
theorem Memory.wf_writeBytes {m : Memory} (hm : Memory.wf m) (a : Nat) (vs : List Byte)
    (ha : 0x1000 ≤ a ∧ a + vs.length ≤ 0x3000) : Memory.wf (Memory.writeBytes m a vs) := by
  induction vs generalizing m a with
  | nil => exact hm
  | cons v vs ih =>
    simp only [List.length_cons] at ha
    exact ih (Memory.wf_write hm a v (by omega)) (a + 1) (by omega)

/-- The memory after reset is in canonical form. -/
theorem Memory.wf_reset : Memory.wf State.reset.mem := by
  simp [State.reset, Memory.wf]

theorem Memory.read?_eq_none_of_lt (m : Memory) (a : Nat) (h : ∀ c ∈ m, a < c.1) : Memory.read? m a = none := by
  induction m with
  | nil => rfl
  | cons c m ih =>
    have hc : a < c.1 := h c (by simp)
    have : a ≠ c.1 := by omega
    simp only [Memory.read?_cons, this, if_false]
    exact ih fun d hd => h d (List.mem_cons_of_mem _ hd)

/-- Memories with rising offsets that read the same are the same list. -/
theorem Memory.eq_of_rising : ∀ {m n : Memory}, List.Pairwise (fun c d : Host.Cell => c.1 < d.1) m →
    List.Pairwise (fun c d : Host.Cell => c.1 < d.1) n → (∀ a, Memory.read? m a = Memory.read? n a) → m = n
  | [], [], _, _, _ => rfl
  | [], d :: n, _, _, h => by have := h d.1; simp [Memory.read?_cons] at this
  | c :: m, [], _, _, h => by have := h c.1; simp [Memory.read?_cons] at this
  | c :: m, d :: n, hm, hn, h => by
    obtain ⟨hc, hm'⟩ := List.pairwise_cons.1 hm
    obtain ⟨hd, hn'⟩ := List.pairwise_cons.1 hn
    have below : ∀ (e : Host.Cell) (l : Memory) (x : Nat), x < e.1 → (∀ f ∈ l, e.1 < f.1) →
        Memory.read? (e :: l) x = none := fun e l x hx he =>
      Memory.read?_eq_none_of_lt _ _ fun f hf => by
        rcases List.mem_cons.1 hf with rfl | hf
        · exact hx
        · exact Nat.lt_trans hx (he f hf)
    have key : c.1 = d.1 := by
      by_contra hne
      rcases Nat.lt_or_gt_of_ne hne with hlt | hlt
      · have h1 := h c.1
        rw [below d n c.1 hlt hd] at h1
        simp [Memory.read?_cons] at h1
      · have h1 := h d.1
        rw [below c m d.1 hlt hc] at h1
        simp [Memory.read?_cons] at h1
    have hcd : c = d := by
      have h1 := h c.1
      simp only [Memory.read?_cons, key, if_true, Option.some.injEq] at h1
      exact Prod.ext key h1
    subst hcd
    have tail : m = n := Memory.eq_of_rising hm' hn' fun a => by
      by_cases ha : a = c.1
      · subst ha
        rw [Memory.read?_eq_none_of_lt m _ hc, Memory.read?_eq_none_of_lt n _ hd]
      · have h1 := h a
        simpa [Memory.read?_cons, ha] using h1
    rw [tail]

/-- Memories in canonical form that read the same are the same list. -/
theorem Memory.eq_of_read?_eq {m n : Memory} (hm : Memory.wf m) (hn : Memory.wf n)
    (h : ∀ a, Memory.read? m a = Memory.read? n a) : m = n :=
  Memory.eq_of_rising hm.1 hn.1 h

/-- The byte of a buffer after bytes were stored. -/
theorem memByte_storeBytes (a : Nat) (vs : List Byte) (s : State) (x : Nat) :
    memByte (storeBytes a vs s) x =
      if h : a ≤ x ∧ x < a + vs.length then vs[x - a]'(by omega) else memByte s x := by
  unfold memByte storeBytes
  simp only [Memory.read?_writeBytes]
  split <;> rfl

@[simp] theorem memBytes_length (s : State) (a n : Nat) : (memBytes s a n).length = n := by
  simp [memBytes]

/-- Byte `i` of a stretch of a buffer. -/
theorem memBytes_getElem (s : State) (a n i : Nat) (h : i < (memBytes s a n).length) :
    (memBytes s a n)[i] = memByte s (a + i) := by
  simp [memBytes]

/-- Stored bytes read back. -/
theorem memBytes_storeBytes (a : Nat) (vs : List Byte) (s : State) :
    memBytes (storeBytes a vs s) a vs.length = vs := by
  apply List.ext_getElem
  · simp
  · intro i h1 h2
    rw [memBytes_getElem, memByte_storeBytes, dif_pos (by omega)]
    simp

end Sys2Proof.Machine
end

