-- ==== Sys2Proof/Laws/State.lean ====
section
/-! SUPPORT. One lemma per field per named update of the state, each true by rfl, so that no later proof unfolds a
record update. -/

namespace Sys2Proof.Machine

variable (s : State)

@[simp] theorem storeBytes_cmd (a : Nat) (vs : List Byte) : (storeBytes a vs s).cmd = s.cmd := rfl
@[simp] theorem storeBytes_busy (a : Nat) (vs : List Byte) : (storeBytes a vs s).busy = s.busy := rfl
@[simp] theorem storeBytes_done (a : Nat) (vs : List Byte) : (storeBytes a vs s).done = s.done := rfl
@[simp] theorem storeBytes_overrun (a : Nat) (vs : List Byte) : (storeBytes a vs s).overrun = s.overrun := rfl
@[simp] theorem storeBytes_sboxReady (a : Nat) (vs : List Byte) : (storeBytes a vs s).sboxReady = s.sboxReady := rfl
@[simp] theorem storeBytes_schedValid (a : Nat) (vs : List Byte) : (storeBytes a vs s).schedValid = s.schedValid := rfl
@[simp] theorem storeBytes_errCode (a : Nat) (vs : List Byte) : (storeBytes a vs s).errCode = s.errCode := rfl
@[simp] theorem storeBytes_irqEn (a : Nat) (vs : List Byte) : (storeBytes a vs s).irqEn = s.irqEn := rfl
@[simp] theorem storeBytes_len (a : Nat) (vs : List Byte) : (storeBytes a vs s).len = s.len := rfl
@[simp] theorem storeBytes_outLen (a : Nat) (vs : List Byte) : (storeBytes a vs s).outLen = s.outLen := rfl
@[simp] theorem storeBytes_opa (a : Nat) (vs : List Byte) : (storeBytes a vs s).opa = s.opa := rfl
@[simp] theorem storeBytes_opb (a : Nat) (vs : List Byte) : (storeBytes a vs s).opb = s.opb := rfl
@[simp] theorem storeBytes_res (a : Nat) (vs : List Byte) : (storeBytes a vs s).res = s.res := rfl
@[simp] theorem storeBytes_key (a : Nat) (vs : List Byte) : (storeBytes a vs s).key = s.key := rfl
@[simp] theorem storeBytes_kwm (a : Nat) (vs : List Byte) : (storeBytes a vs s).kwm = s.kwm := rfl
@[simp] theorem storeBytes_blk (a : Nat) (vs : List Byte) : (storeBytes a vs s).blk = s.blk := rfl
@[simp] theorem storeBytes_sched (a : Nat) (vs : List Byte) : (storeBytes a vs s).sched = s.sched := rfl
@[simp] theorem storeBytes_sbox (a : Nat) (vs : List Byte) : (storeBytes a vs s).sbox = s.sbox := rfl
@[simp] theorem storeBytes_invSbox (a : Nat) (vs : List Byte) : (storeBytes a vs s).invSbox = s.invSbox := rfl
@[simp] theorem storeBytes_mem (a : Nat) (vs : List Byte) : (storeBytes a vs s).mem = Memory.writeBytes s.mem a vs := rfl
@[simp] theorem storeBytes_resp (a : Nat) (vs : List Byte) : (storeBytes a vs s).resp = s.resp := rfl
@[simp] theorem storeBytes_agenda (a : Nat) (vs : List Byte) : (storeBytes a vs s).agenda = s.agenda := rfl
@[simp] theorem storeBytes_schedWritten (a : Nat) (vs : List Byte) : (storeBytes a vs s).schedWritten = s.schedWritten := rfl
@[simp] theorem storeBytes_epoch (a : Nat) (vs : List Byte) : (storeBytes a vs s).epoch = s.epoch := rfl
@[simp] theorem storeBytes_draws (a : Nat) (vs : List Byte) : (storeBytes a vs s).draws = s.draws := rfl
@[simp] theorem storeBytes_hostFault (a : Nat) (vs : List Byte) : (storeBytes a vs s).hostFault = s.hostFault := rfl
@[simp] theorem storeBytes_unpadWindow (a : Nat) (vs : List Byte) : (storeBytes a vs s).unpadWindow = s.unpadWindow := rfl

@[simp] theorem writeSched_cmd (w : Vector Word 44) : (writeSched w s).cmd = s.cmd := rfl
@[simp] theorem writeSched_busy (w : Vector Word 44) : (writeSched w s).busy = s.busy := rfl
@[simp] theorem writeSched_done (w : Vector Word 44) : (writeSched w s).done = s.done := rfl
@[simp] theorem writeSched_overrun (w : Vector Word 44) : (writeSched w s).overrun = s.overrun := rfl
@[simp] theorem writeSched_sboxReady (w : Vector Word 44) : (writeSched w s).sboxReady = s.sboxReady := rfl
@[simp] theorem writeSched_schedValid (w : Vector Word 44) : (writeSched w s).schedValid = true := rfl
@[simp] theorem writeSched_errCode (w : Vector Word 44) : (writeSched w s).errCode = s.errCode := rfl
@[simp] theorem writeSched_irqEn (w : Vector Word 44) : (writeSched w s).irqEn = s.irqEn := rfl
@[simp] theorem writeSched_len (w : Vector Word 44) : (writeSched w s).len = s.len := rfl
@[simp] theorem writeSched_outLen (w : Vector Word 44) : (writeSched w s).outLen = s.outLen := rfl
@[simp] theorem writeSched_opa (w : Vector Word 44) : (writeSched w s).opa = s.opa := rfl
@[simp] theorem writeSched_opb (w : Vector Word 44) : (writeSched w s).opb = s.opb := rfl
@[simp] theorem writeSched_res (w : Vector Word 44) : (writeSched w s).res = s.res := rfl
@[simp] theorem writeSched_key (w : Vector Word 44) : (writeSched w s).key = s.key := rfl
@[simp] theorem writeSched_kwm (w : Vector Word 44) : (writeSched w s).kwm = s.kwm := rfl
@[simp] theorem writeSched_blk (w : Vector Word 44) : (writeSched w s).blk = s.blk := rfl
@[simp] theorem writeSched_sched (w : Vector Word 44) : (writeSched w s).sched = w := rfl
@[simp] theorem writeSched_sbox (w : Vector Word 44) : (writeSched w s).sbox = s.sbox := rfl
@[simp] theorem writeSched_invSbox (w : Vector Word 44) : (writeSched w s).invSbox = s.invSbox := rfl
@[simp] theorem writeSched_mem (w : Vector Word 44) : (writeSched w s).mem = s.mem := rfl
@[simp] theorem writeSched_resp (w : Vector Word 44) : (writeSched w s).resp = s.resp := rfl
@[simp] theorem writeSched_agenda (w : Vector Word 44) : (writeSched w s).agenda = s.agenda := rfl
@[simp] theorem writeSched_schedWritten (w : Vector Word 44) : (writeSched w s).schedWritten = true := rfl
@[simp] theorem writeSched_epoch (w : Vector Word 44) : (writeSched w s).epoch = s.epoch := rfl
@[simp] theorem writeSched_draws (w : Vector Word 44) : (writeSched w s).draws = s.draws := rfl
@[simp] theorem writeSched_hostFault (w : Vector Word 44) : (writeSched w s).hostFault = s.hostFault := rfl
@[simp] theorem writeSched_unpadWindow (w : Vector Word 44) : (writeSched w s).unpadWindow = s.unpadWindow := rfl

@[simp] theorem completed_cmd : (completed s).cmd = s.cmd := rfl
@[simp] theorem completed_busy : (completed s).busy = false := rfl
@[simp] theorem completed_done : (completed s).done = true := rfl
@[simp] theorem completed_overrun : (completed s).overrun = s.overrun := rfl
@[simp] theorem completed_sboxReady : (completed s).sboxReady = s.sboxReady := rfl
@[simp] theorem completed_schedValid : (completed s).schedValid = s.schedValid := rfl
@[simp] theorem completed_errCode : (completed s).errCode = .ok := rfl
@[simp] theorem completed_irqEn : (completed s).irqEn = s.irqEn := rfl
@[simp] theorem completed_len : (completed s).len = s.len := rfl
@[simp] theorem completed_outLen : (completed s).outLen = s.outLen := rfl
@[simp] theorem completed_opa : (completed s).opa = s.opa := rfl
@[simp] theorem completed_opb : (completed s).opb = s.opb := rfl
@[simp] theorem completed_res : (completed s).res = s.res := rfl
@[simp] theorem completed_key : (completed s).key = s.key := rfl
@[simp] theorem completed_kwm : (completed s).kwm = s.kwm := rfl
@[simp] theorem completed_blk : (completed s).blk = s.blk := rfl
@[simp] theorem completed_sched : (completed s).sched = s.sched := rfl
@[simp] theorem completed_sbox : (completed s).sbox = s.sbox := rfl
@[simp] theorem completed_invSbox : (completed s).invSbox = s.invSbox := rfl
@[simp] theorem completed_mem : (completed s).mem = s.mem := rfl
@[simp] theorem completed_resp : (completed s).resp = s.resp := rfl
@[simp] theorem completed_agenda : (completed s).agenda = s.agenda := rfl
@[simp] theorem completed_schedWritten : (completed s).schedWritten = s.schedWritten := rfl
@[simp] theorem completed_epoch : (completed s).epoch = s.epoch := rfl
@[simp] theorem completed_draws : (completed s).draws = s.draws := rfl
@[simp] theorem completed_hostFault : (completed s).hostFault = s.hostFault := rfl
@[simp] theorem completed_unpadWindow : (completed s).unpadWindow = s.unpadWindow := rfl

@[simp] theorem failed_cmd (op : Byte) (code : ErrCode) : (failed op code s).cmd = s.cmd := rfl
@[simp] theorem failed_busy (op : Byte) (code : ErrCode) : (failed op code s).busy = false := rfl
@[simp] theorem failed_done (op : Byte) (code : ErrCode) : (failed op code s).done = true := rfl
@[simp] theorem failed_overrun (op : Byte) (code : ErrCode) : (failed op code s).overrun = s.overrun := rfl
@[simp] theorem failed_sboxReady (op : Byte) (code : ErrCode) : (failed op code s).sboxReady = s.sboxReady := rfl
@[simp] theorem failed_schedValid (op : Byte) (code : ErrCode) : (failed op code s).schedValid = s.schedValid := rfl
@[simp] theorem failed_errCode (op : Byte) (code : ErrCode) : (failed op code s).errCode = code := rfl
@[simp] theorem failed_irqEn (op : Byte) (code : ErrCode) : (failed op code s).irqEn = s.irqEn := rfl
@[simp] theorem failed_len (op : Byte) (code : ErrCode) : (failed op code s).len = s.len := rfl
@[simp] theorem failed_outLen (op : Byte) (code : ErrCode) : (failed op code s).outLen = if isEcbOp op then 0#32 else s.outLen := rfl
@[simp] theorem failed_opa (op : Byte) (code : ErrCode) : (failed op code s).opa = s.opa := rfl
@[simp] theorem failed_opb (op : Byte) (code : ErrCode) : (failed op code s).opb = s.opb := rfl
@[simp] theorem failed_res (op : Byte) (code : ErrCode) : (failed op code s).res = s.res := rfl
@[simp] theorem failed_key (op : Byte) (code : ErrCode) : (failed op code s).key = s.key := rfl
@[simp] theorem failed_kwm (op : Byte) (code : ErrCode) : (failed op code s).kwm = s.kwm := rfl
@[simp] theorem failed_blk (op : Byte) (code : ErrCode) : (failed op code s).blk = s.blk := rfl
@[simp] theorem failed_sched (op : Byte) (code : ErrCode) : (failed op code s).sched = s.sched := rfl
@[simp] theorem failed_sbox (op : Byte) (code : ErrCode) : (failed op code s).sbox = s.sbox := rfl
@[simp] theorem failed_invSbox (op : Byte) (code : ErrCode) : (failed op code s).invSbox = s.invSbox := rfl
@[simp] theorem failed_mem (op : Byte) (code : ErrCode) : (failed op code s).mem = s.mem := rfl
@[simp] theorem failed_resp (op : Byte) (code : ErrCode) : (failed op code s).resp = s.resp := rfl
@[simp] theorem failed_agenda (op : Byte) (code : ErrCode) : (failed op code s).agenda = s.agenda := rfl
@[simp] theorem failed_schedWritten (op : Byte) (code : ErrCode) : (failed op code s).schedWritten = s.schedWritten := rfl
@[simp] theorem failed_epoch (op : Byte) (code : ErrCode) : (failed op code s).epoch = s.epoch := rfl
@[simp] theorem failed_draws (op : Byte) (code : ErrCode) : (failed op code s).draws = s.draws := rfl
@[simp] theorem failed_hostFault (op : Byte) (code : ErrCode) : (failed op code s).hostFault = s.hostFault := rfl
@[simp] theorem failed_unpadWindow (op : Byte) (code : ErrCode) : (failed op code s).unpadWindow = s.unpadWindow := rfl

@[simp] theorem issue_cmd (c : Word) : (issue c s).cmd = c := rfl
@[simp] theorem issue_busy (c : Word) : (issue c s).busy = true := rfl
@[simp] theorem issue_done (c : Word) : (issue c s).done = false := rfl
@[simp] theorem issue_overrun (c : Word) : (issue c s).overrun = s.overrun := rfl
@[simp] theorem issue_sboxReady (c : Word) : (issue c s).sboxReady = s.sboxReady := rfl
@[simp] theorem issue_schedValid (c : Word) : (issue c s).schedValid = s.schedValid := rfl
@[simp] theorem issue_errCode (c : Word) : (issue c s).errCode = s.errCode := rfl
@[simp] theorem issue_irqEn (c : Word) : (issue c s).irqEn = s.irqEn := rfl
@[simp] theorem issue_len (c : Word) : (issue c s).len = s.len := rfl
@[simp] theorem issue_outLen (c : Word) : (issue c s).outLen = s.outLen := rfl
@[simp] theorem issue_opa (c : Word) : (issue c s).opa = s.opa := rfl
@[simp] theorem issue_opb (c : Word) : (issue c s).opb = s.opb := rfl
@[simp] theorem issue_res (c : Word) : (issue c s).res = s.res := rfl
@[simp] theorem issue_key (c : Word) : (issue c s).key = s.key := rfl
@[simp] theorem issue_kwm (c : Word) : (issue c s).kwm = s.kwm := rfl
@[simp] theorem issue_blk (c : Word) : (issue c s).blk = s.blk := rfl
@[simp] theorem issue_sched (c : Word) : (issue c s).sched = s.sched := rfl
@[simp] theorem issue_sbox (c : Word) : (issue c s).sbox = s.sbox := rfl
@[simp] theorem issue_invSbox (c : Word) : (issue c s).invSbox = s.invSbox := rfl
@[simp] theorem issue_mem (c : Word) : (issue c s).mem = s.mem := rfl
@[simp] theorem issue_resp (c : Word) : (issue c s).resp = s.resp := rfl
@[simp] theorem issue_agenda (c : Word) : (issue c s).agenda = s.agenda := rfl
@[simp] theorem issue_schedWritten (c : Word) : (issue c s).schedWritten = s.schedWritten := rfl
@[simp] theorem issue_epoch (c : Word) : (issue c s).epoch = s.epoch := rfl
@[simp] theorem issue_draws (c : Word) : (issue c s).draws = s.draws := rfl
@[simp] theorem issue_hostFault (c : Word) : (issue c s).hostFault = s.hostFault := rfl
@[simp] theorem issue_unpadWindow (c : Word) : (issue c s).unpadWindow = s.unpadWindow := rfl

@[simp] theorem writeResByte_cmd (v : Byte) : (writeResByte v s).cmd = s.cmd := rfl
@[simp] theorem writeResByte_busy (v : Byte) : (writeResByte v s).busy = s.busy := rfl
@[simp] theorem writeResByte_done (v : Byte) : (writeResByte v s).done = s.done := rfl
@[simp] theorem writeResByte_overrun (v : Byte) : (writeResByte v s).overrun = s.overrun := rfl
@[simp] theorem writeResByte_sboxReady (v : Byte) : (writeResByte v s).sboxReady = s.sboxReady := rfl
@[simp] theorem writeResByte_schedValid (v : Byte) : (writeResByte v s).schedValid = s.schedValid := rfl
@[simp] theorem writeResByte_errCode (v : Byte) : (writeResByte v s).errCode = s.errCode := rfl
@[simp] theorem writeResByte_irqEn (v : Byte) : (writeResByte v s).irqEn = s.irqEn := rfl
@[simp] theorem writeResByte_len (v : Byte) : (writeResByte v s).len = s.len := rfl
@[simp] theorem writeResByte_outLen (v : Byte) : (writeResByte v s).outLen = s.outLen := rfl
@[simp] theorem writeResByte_opa (v : Byte) : (writeResByte v s).opa = s.opa := rfl
@[simp] theorem writeResByte_opb (v : Byte) : (writeResByte v s).opb = s.opb := rfl
@[simp] theorem writeResByte_res (v : Byte) : (writeResByte v s).res = v.setWidth 32 := rfl
@[simp] theorem writeResByte_key (v : Byte) : (writeResByte v s).key = s.key := rfl
@[simp] theorem writeResByte_kwm (v : Byte) : (writeResByte v s).kwm = s.kwm := rfl
@[simp] theorem writeResByte_blk (v : Byte) : (writeResByte v s).blk = s.blk := rfl
@[simp] theorem writeResByte_sched (v : Byte) : (writeResByte v s).sched = s.sched := rfl
@[simp] theorem writeResByte_sbox (v : Byte) : (writeResByte v s).sbox = s.sbox := rfl
@[simp] theorem writeResByte_invSbox (v : Byte) : (writeResByte v s).invSbox = s.invSbox := rfl
@[simp] theorem writeResByte_mem (v : Byte) : (writeResByte v s).mem = s.mem := rfl
@[simp] theorem writeResByte_resp (v : Byte) : (writeResByte v s).resp = s.resp := rfl
@[simp] theorem writeResByte_agenda (v : Byte) : (writeResByte v s).agenda = s.agenda := rfl
@[simp] theorem writeResByte_schedWritten (v : Byte) : (writeResByte v s).schedWritten = s.schedWritten := rfl
@[simp] theorem writeResByte_epoch (v : Byte) : (writeResByte v s).epoch = s.epoch := rfl
@[simp] theorem writeResByte_draws (v : Byte) : (writeResByte v s).draws = s.draws := rfl
@[simp] theorem writeResByte_hostFault (v : Byte) : (writeResByte v s).hostFault = s.hostFault := rfl
@[simp] theorem writeResByte_unpadWindow (v : Byte) : (writeResByte v s).unpadWindow = s.unpadWindow := rfl

@[simp] theorem writeResAes_cmd (d : AesWord) : (writeResAes d s).cmd = s.cmd := rfl
@[simp] theorem writeResAes_busy (d : AesWord) : (writeResAes d s).busy = s.busy := rfl
@[simp] theorem writeResAes_done (d : AesWord) : (writeResAes d s).done = s.done := rfl
@[simp] theorem writeResAes_overrun (d : AesWord) : (writeResAes d s).overrun = s.overrun := rfl
@[simp] theorem writeResAes_sboxReady (d : AesWord) : (writeResAes d s).sboxReady = s.sboxReady := rfl
@[simp] theorem writeResAes_schedValid (d : AesWord) : (writeResAes d s).schedValid = s.schedValid := rfl
@[simp] theorem writeResAes_errCode (d : AesWord) : (writeResAes d s).errCode = s.errCode := rfl
@[simp] theorem writeResAes_irqEn (d : AesWord) : (writeResAes d s).irqEn = s.irqEn := rfl
@[simp] theorem writeResAes_len (d : AesWord) : (writeResAes d s).len = s.len := rfl
@[simp] theorem writeResAes_outLen (d : AesWord) : (writeResAes d s).outLen = s.outLen := rfl
@[simp] theorem writeResAes_opa (d : AesWord) : (writeResAes d s).opa = s.opa := rfl
@[simp] theorem writeResAes_opb (d : AesWord) : (writeResAes d s).opb = s.opb := rfl
@[simp] theorem writeResAes_res (d : AesWord) : (writeResAes d s).res = wordOfAes d := rfl
@[simp] theorem writeResAes_key (d : AesWord) : (writeResAes d s).key = s.key := rfl
@[simp] theorem writeResAes_kwm (d : AesWord) : (writeResAes d s).kwm = s.kwm := rfl
@[simp] theorem writeResAes_blk (d : AesWord) : (writeResAes d s).blk = s.blk := rfl
@[simp] theorem writeResAes_sched (d : AesWord) : (writeResAes d s).sched = s.sched := rfl
@[simp] theorem writeResAes_sbox (d : AesWord) : (writeResAes d s).sbox = s.sbox := rfl
@[simp] theorem writeResAes_invSbox (d : AesWord) : (writeResAes d s).invSbox = s.invSbox := rfl
@[simp] theorem writeResAes_mem (d : AesWord) : (writeResAes d s).mem = s.mem := rfl
@[simp] theorem writeResAes_resp (d : AesWord) : (writeResAes d s).resp = s.resp := rfl
@[simp] theorem writeResAes_agenda (d : AesWord) : (writeResAes d s).agenda = s.agenda := rfl
@[simp] theorem writeResAes_schedWritten (d : AesWord) : (writeResAes d s).schedWritten = s.schedWritten := rfl
@[simp] theorem writeResAes_epoch (d : AesWord) : (writeResAes d s).epoch = s.epoch := rfl
@[simp] theorem writeResAes_draws (d : AesWord) : (writeResAes d s).draws = s.draws := rfl
@[simp] theorem writeResAes_hostFault (d : AesWord) : (writeResAes d s).hostFault = s.hostFault := rfl
@[simp] theorem writeResAes_unpadWindow (d : AesWord) : (writeResAes d s).unpadWindow = s.unpadWindow := rfl

@[simp] theorem storeBlock_cmd (x : AesState) : (storeBlock x s).cmd = s.cmd := rfl
@[simp] theorem storeBlock_busy (x : AesState) : (storeBlock x s).busy = s.busy := rfl
@[simp] theorem storeBlock_done (x : AesState) : (storeBlock x s).done = s.done := rfl
@[simp] theorem storeBlock_overrun (x : AesState) : (storeBlock x s).overrun = s.overrun := rfl
@[simp] theorem storeBlock_sboxReady (x : AesState) : (storeBlock x s).sboxReady = s.sboxReady := rfl
@[simp] theorem storeBlock_schedValid (x : AesState) : (storeBlock x s).schedValid = s.schedValid := rfl
@[simp] theorem storeBlock_errCode (x : AesState) : (storeBlock x s).errCode = s.errCode := rfl
@[simp] theorem storeBlock_irqEn (x : AesState) : (storeBlock x s).irqEn = s.irqEn := rfl
@[simp] theorem storeBlock_len (x : AesState) : (storeBlock x s).len = s.len := rfl
@[simp] theorem storeBlock_outLen (x : AesState) : (storeBlock x s).outLen = s.outLen := rfl
@[simp] theorem storeBlock_opa (x : AesState) : (storeBlock x s).opa = s.opa := rfl
@[simp] theorem storeBlock_opb (x : AesState) : (storeBlock x s).opb = s.opb := rfl
@[simp] theorem storeBlock_res (x : AesState) : (storeBlock x s).res = s.res := rfl
@[simp] theorem storeBlock_key (x : AesState) : (storeBlock x s).key = s.key := rfl
@[simp] theorem storeBlock_kwm (x : AesState) : (storeBlock x s).kwm = s.kwm := rfl
@[simp] theorem storeBlock_blk (x : AesState) : (storeBlock x s).blk = #v[wordOfAes x.c0, wordOfAes x.c1, wordOfAes x.c2, wordOfAes x.c3] := rfl
@[simp] theorem storeBlock_sched (x : AesState) : (storeBlock x s).sched = s.sched := rfl
@[simp] theorem storeBlock_sbox (x : AesState) : (storeBlock x s).sbox = s.sbox := rfl
@[simp] theorem storeBlock_invSbox (x : AesState) : (storeBlock x s).invSbox = s.invSbox := rfl
@[simp] theorem storeBlock_mem (x : AesState) : (storeBlock x s).mem = s.mem := rfl
@[simp] theorem storeBlock_resp (x : AesState) : (storeBlock x s).resp = s.resp := rfl
@[simp] theorem storeBlock_agenda (x : AesState) : (storeBlock x s).agenda = s.agenda := rfl
@[simp] theorem storeBlock_schedWritten (x : AesState) : (storeBlock x s).schedWritten = s.schedWritten := rfl
@[simp] theorem storeBlock_epoch (x : AesState) : (storeBlock x s).epoch = s.epoch := rfl
@[simp] theorem storeBlock_draws (x : AesState) : (storeBlock x s).draws = s.draws := rfl
@[simp] theorem storeBlock_hostFault (x : AesState) : (storeBlock x s).hostFault = s.hostFault := rfl
@[simp] theorem storeBlock_unpadWindow (x : AesState) : (storeBlock x s).unpadWindow = s.unpadWindow := rfl

@[simp] theorem writeStatus_cmd (v : Word) : (writeStatus v s).cmd = s.cmd := rfl
@[simp] theorem writeStatus_busy (v : Word) : (writeStatus v s).busy = s.busy := rfl
@[simp] theorem writeStatus_done (v : Word) : (writeStatus v s).done = (s.done && !v.getLsbD 1) := rfl
@[simp] theorem writeStatus_overrun (v : Word) : (writeStatus v s).overrun = (s.overrun && !v.getLsbD 3) := rfl
@[simp] theorem writeStatus_sboxReady (v : Word) : (writeStatus v s).sboxReady = s.sboxReady := rfl
@[simp] theorem writeStatus_schedValid (v : Word) : (writeStatus v s).schedValid = s.schedValid := rfl
@[simp] theorem writeStatus_errCode (v : Word) : (writeStatus v s).errCode = s.errCode := rfl
@[simp] theorem writeStatus_irqEn (v : Word) : (writeStatus v s).irqEn = s.irqEn := rfl
@[simp] theorem writeStatus_len (v : Word) : (writeStatus v s).len = s.len := rfl
@[simp] theorem writeStatus_outLen (v : Word) : (writeStatus v s).outLen = s.outLen := rfl
@[simp] theorem writeStatus_opa (v : Word) : (writeStatus v s).opa = s.opa := rfl
@[simp] theorem writeStatus_opb (v : Word) : (writeStatus v s).opb = s.opb := rfl
@[simp] theorem writeStatus_res (v : Word) : (writeStatus v s).res = s.res := rfl
@[simp] theorem writeStatus_key (v : Word) : (writeStatus v s).key = s.key := rfl
@[simp] theorem writeStatus_kwm (v : Word) : (writeStatus v s).kwm = s.kwm := rfl
@[simp] theorem writeStatus_blk (v : Word) : (writeStatus v s).blk = s.blk := rfl
@[simp] theorem writeStatus_sched (v : Word) : (writeStatus v s).sched = s.sched := rfl
@[simp] theorem writeStatus_sbox (v : Word) : (writeStatus v s).sbox = s.sbox := rfl
@[simp] theorem writeStatus_invSbox (v : Word) : (writeStatus v s).invSbox = s.invSbox := rfl
@[simp] theorem writeStatus_mem (v : Word) : (writeStatus v s).mem = s.mem := rfl
@[simp] theorem writeStatus_resp (v : Word) : (writeStatus v s).resp = s.resp := rfl
@[simp] theorem writeStatus_agenda (v : Word) : (writeStatus v s).agenda = s.agenda := rfl
@[simp] theorem writeStatus_schedWritten (v : Word) : (writeStatus v s).schedWritten = s.schedWritten := rfl
@[simp] theorem writeStatus_epoch (v : Word) : (writeStatus v s).epoch = s.epoch := rfl
@[simp] theorem writeStatus_draws (v : Word) : (writeStatus v s).draws = s.draws := rfl
@[simp] theorem writeStatus_hostFault (v : Word) : (writeStatus v s).hostFault = s.hostFault := rfl
@[simp] theorem writeStatus_unpadWindow (v : Word) : (writeStatus v s).unpadWindow = s.unpadWindow := rfl

@[simp] theorem writeCtrl_cmd (v : Word) : (writeCtrl v s).cmd = s.cmd := rfl
@[simp] theorem writeCtrl_busy (v : Word) : (writeCtrl v s).busy = s.busy := rfl
@[simp] theorem writeCtrl_done (v : Word) : (writeCtrl v s).done = s.done := rfl
@[simp] theorem writeCtrl_overrun (v : Word) : (writeCtrl v s).overrun = s.overrun := rfl
@[simp] theorem writeCtrl_sboxReady (v : Word) : (writeCtrl v s).sboxReady = s.sboxReady := rfl
@[simp] theorem writeCtrl_schedValid (v : Word) : (writeCtrl v s).schedValid = s.schedValid := rfl
@[simp] theorem writeCtrl_errCode (v : Word) : (writeCtrl v s).errCode = s.errCode := rfl
@[simp] theorem writeCtrl_irqEn (v : Word) : (writeCtrl v s).irqEn = v.getLsbD 0 := rfl
@[simp] theorem writeCtrl_len (v : Word) : (writeCtrl v s).len = s.len := rfl
@[simp] theorem writeCtrl_outLen (v : Word) : (writeCtrl v s).outLen = s.outLen := rfl
@[simp] theorem writeCtrl_opa (v : Word) : (writeCtrl v s).opa = s.opa := rfl
@[simp] theorem writeCtrl_opb (v : Word) : (writeCtrl v s).opb = s.opb := rfl
@[simp] theorem writeCtrl_res (v : Word) : (writeCtrl v s).res = s.res := rfl
@[simp] theorem writeCtrl_key (v : Word) : (writeCtrl v s).key = s.key := rfl
@[simp] theorem writeCtrl_kwm (v : Word) : (writeCtrl v s).kwm = s.kwm := rfl
@[simp] theorem writeCtrl_blk (v : Word) : (writeCtrl v s).blk = s.blk := rfl
@[simp] theorem writeCtrl_sched (v : Word) : (writeCtrl v s).sched = s.sched := rfl
@[simp] theorem writeCtrl_sbox (v : Word) : (writeCtrl v s).sbox = s.sbox := rfl
@[simp] theorem writeCtrl_invSbox (v : Word) : (writeCtrl v s).invSbox = s.invSbox := rfl
@[simp] theorem writeCtrl_mem (v : Word) : (writeCtrl v s).mem = s.mem := rfl
@[simp] theorem writeCtrl_resp (v : Word) : (writeCtrl v s).resp = s.resp := rfl
@[simp] theorem writeCtrl_agenda (v : Word) : (writeCtrl v s).agenda = s.agenda := rfl
@[simp] theorem writeCtrl_schedWritten (v : Word) : (writeCtrl v s).schedWritten = s.schedWritten := rfl
@[simp] theorem writeCtrl_epoch (v : Word) : (writeCtrl v s).epoch = s.epoch := rfl
@[simp] theorem writeCtrl_draws (v : Word) : (writeCtrl v s).draws = s.draws := rfl
@[simp] theorem writeCtrl_hostFault (v : Word) : (writeCtrl v s).hostFault = s.hostFault := rfl
@[simp] theorem writeCtrl_unpadWindow (v : Word) : (writeCtrl v s).unpadWindow = s.unpadWindow := rfl

@[simp] theorem writeKey_cmd (k : Fin 4) (v : Word) : (writeKey k v s).cmd = s.cmd := rfl
@[simp] theorem writeKey_busy (k : Fin 4) (v : Word) : (writeKey k v s).busy = s.busy := rfl
@[simp] theorem writeKey_done (k : Fin 4) (v : Word) : (writeKey k v s).done = s.done := rfl
@[simp] theorem writeKey_overrun (k : Fin 4) (v : Word) : (writeKey k v s).overrun = s.overrun := rfl
@[simp] theorem writeKey_sboxReady (k : Fin 4) (v : Word) : (writeKey k v s).sboxReady = s.sboxReady := rfl
@[simp] theorem writeKey_schedValid (k : Fin 4) (v : Word) : (writeKey k v s).schedValid = false := rfl
@[simp] theorem writeKey_errCode (k : Fin 4) (v : Word) : (writeKey k v s).errCode = s.errCode := rfl
@[simp] theorem writeKey_irqEn (k : Fin 4) (v : Word) : (writeKey k v s).irqEn = s.irqEn := rfl
@[simp] theorem writeKey_len (k : Fin 4) (v : Word) : (writeKey k v s).len = s.len := rfl
@[simp] theorem writeKey_outLen (k : Fin 4) (v : Word) : (writeKey k v s).outLen = s.outLen := rfl
@[simp] theorem writeKey_opa (k : Fin 4) (v : Word) : (writeKey k v s).opa = s.opa := rfl
@[simp] theorem writeKey_opb (k : Fin 4) (v : Word) : (writeKey k v s).opb = s.opb := rfl
@[simp] theorem writeKey_res (k : Fin 4) (v : Word) : (writeKey k v s).res = s.res := rfl
@[simp] theorem writeKey_key (k : Fin 4) (v : Word) : (writeKey k v s).key = s.key.set k v := rfl
@[simp] theorem writeKey_kwm (k : Fin 4) (v : Word) : (writeKey k v s).kwm = s.kwm ||| (1#4 <<< k.val) := rfl
@[simp] theorem writeKey_blk (k : Fin 4) (v : Word) : (writeKey k v s).blk = s.blk := rfl
@[simp] theorem writeKey_sched (k : Fin 4) (v : Word) : (writeKey k v s).sched = s.sched := rfl
@[simp] theorem writeKey_sbox (k : Fin 4) (v : Word) : (writeKey k v s).sbox = s.sbox := rfl
@[simp] theorem writeKey_invSbox (k : Fin 4) (v : Word) : (writeKey k v s).invSbox = s.invSbox := rfl
@[simp] theorem writeKey_mem (k : Fin 4) (v : Word) : (writeKey k v s).mem = s.mem := rfl
@[simp] theorem writeKey_resp (k : Fin 4) (v : Word) : (writeKey k v s).resp = s.resp := rfl
@[simp] theorem writeKey_agenda (k : Fin 4) (v : Word) : (writeKey k v s).agenda = s.agenda := rfl
@[simp] theorem writeKey_schedWritten (k : Fin 4) (v : Word) : (writeKey k v s).schedWritten = s.schedWritten := rfl
@[simp] theorem writeKey_epoch (k : Fin 4) (v : Word) : (writeKey k v s).epoch = s.epoch := rfl
@[simp] theorem writeKey_draws (k : Fin 4) (v : Word) : (writeKey k v s).draws = s.draws := rfl
@[simp] theorem writeKey_hostFault (k : Fin 4) (v : Word) : (writeKey k v s).hostFault = s.hostFault := rfl
@[simp] theorem writeKey_unpadWindow (k : Fin 4) (v : Word) : (writeKey k v s).unpadWindow = s.unpadWindow := rfl

@[simp] theorem generate_cmd : (generate s).cmd = s.cmd := rfl
@[simp] theorem generate_busy : (generate s).busy = s.busy := rfl
@[simp] theorem generate_done : (generate s).done = s.done := rfl
@[simp] theorem generate_overrun : (generate s).overrun = s.overrun := rfl
@[simp] theorem generate_sboxReady : (generate s).sboxReady = true := rfl
@[simp] theorem generate_schedValid : (generate s).schedValid = s.schedValid := rfl
@[simp] theorem generate_errCode : (generate s).errCode = s.errCode := rfl
@[simp] theorem generate_irqEn : (generate s).irqEn = s.irqEn := rfl
@[simp] theorem generate_len : (generate s).len = s.len := rfl
@[simp] theorem generate_outLen : (generate s).outLen = s.outLen := rfl
@[simp] theorem generate_opa : (generate s).opa = s.opa := rfl
@[simp] theorem generate_opb : (generate s).opb = s.opb := rfl
@[simp] theorem generate_res : (generate s).res = s.res := rfl
@[simp] theorem generate_key : (generate s).key = s.key := rfl
@[simp] theorem generate_kwm : (generate s).kwm = s.kwm := rfl
@[simp] theorem generate_blk : (generate s).blk = s.blk := rfl
@[simp] theorem generate_sched : (generate s).sched = s.sched := rfl
@[simp] theorem generate_sbox : (generate s).sbox = sboxTable := by
  simp only [generate]
@[simp] theorem generate_invSbox : (generate s).invSbox = invSboxTable sboxTable s.invSbox := by
  simp only [generate]
@[simp] theorem generate_mem : (generate s).mem = s.mem := rfl
@[simp] theorem generate_resp : (generate s).resp = s.resp := rfl
@[simp] theorem generate_agenda : (generate s).agenda = s.agenda := rfl
@[simp] theorem generate_schedWritten : (generate s).schedWritten = s.schedWritten := rfl
@[simp] theorem generate_epoch : (generate s).epoch = s.epoch := rfl
@[simp] theorem generate_draws : (generate s).draws = s.draws := rfl
@[simp] theorem generate_hostFault : (generate s).hostFault = s.hostFault := rfl
@[simp] theorem generate_unpadWindow : (generate s).unpadWindow = s.unpadWindow := rfl

@[simp] theorem respondDraw_cmd : (respondDraw s).cmd = s.cmd := rfl
@[simp] theorem respondDraw_busy : (respondDraw s).busy = s.busy := rfl
@[simp] theorem respondDraw_done : (respondDraw s).done = s.done := rfl
@[simp] theorem respondDraw_overrun : (respondDraw s).overrun = s.overrun := rfl
@[simp] theorem respondDraw_sboxReady : (respondDraw s).sboxReady = s.sboxReady := rfl
@[simp] theorem respondDraw_schedValid : (respondDraw s).schedValid = s.schedValid := rfl
@[simp] theorem respondDraw_errCode : (respondDraw s).errCode = s.errCode := rfl
@[simp] theorem respondDraw_irqEn : (respondDraw s).irqEn = s.irqEn := rfl
@[simp] theorem respondDraw_len : (respondDraw s).len = s.len := rfl
@[simp] theorem respondDraw_outLen : (respondDraw s).outLen = s.outLen := rfl
@[simp] theorem respondDraw_opa : (respondDraw s).opa = s.opa := rfl
@[simp] theorem respondDraw_opb : (respondDraw s).opb = s.opb := rfl
@[simp] theorem respondDraw_res : (respondDraw s).res = s.res := rfl
@[simp] theorem respondDraw_key : (respondDraw s).key = s.key := rfl
@[simp] theorem respondDraw_kwm : (respondDraw s).kwm = s.kwm := rfl
@[simp] theorem respondDraw_blk : (respondDraw s).blk = s.blk := rfl
@[simp] theorem respondDraw_sched : (respondDraw s).sched = s.sched := rfl
@[simp] theorem respondDraw_sbox : (respondDraw s).sbox = s.sbox := rfl
@[simp] theorem respondDraw_invSbox : (respondDraw s).invSbox = s.invSbox := rfl
@[simp] theorem respondDraw_mem : (respondDraw s).mem = s.mem := rfl
@[simp] theorem respondDraw_resp : (respondDraw s).resp = some ⟨Config.freeWord s.draws, false⟩ := rfl
@[simp] theorem respondDraw_agenda : (respondDraw s).agenda = s.agenda := rfl
@[simp] theorem respondDraw_schedWritten : (respondDraw s).schedWritten = s.schedWritten := rfl
@[simp] theorem respondDraw_epoch : (respondDraw s).epoch = s.epoch := rfl
@[simp] theorem respondDraw_draws : (respondDraw s).draws = s.draws + 1 := rfl
@[simp] theorem respondDraw_hostFault : (respondDraw s).hostFault = s.hostFault := rfl
@[simp] theorem respondDraw_unpadWindow : (respondDraw s).unpadWindow = s.unpadWindow := rfl

@[simp] theorem respond_cmd (v : Word) : (respond v s).cmd = s.cmd := rfl
@[simp] theorem respond_busy (v : Word) : (respond v s).busy = s.busy := rfl
@[simp] theorem respond_done (v : Word) : (respond v s).done = s.done := rfl
@[simp] theorem respond_overrun (v : Word) : (respond v s).overrun = s.overrun := rfl
@[simp] theorem respond_sboxReady (v : Word) : (respond v s).sboxReady = s.sboxReady := rfl
@[simp] theorem respond_schedValid (v : Word) : (respond v s).schedValid = s.schedValid := rfl
@[simp] theorem respond_errCode (v : Word) : (respond v s).errCode = s.errCode := rfl
@[simp] theorem respond_irqEn (v : Word) : (respond v s).irqEn = s.irqEn := rfl
@[simp] theorem respond_len (v : Word) : (respond v s).len = s.len := rfl
@[simp] theorem respond_outLen (v : Word) : (respond v s).outLen = s.outLen := rfl
@[simp] theorem respond_opa (v : Word) : (respond v s).opa = s.opa := rfl
@[simp] theorem respond_opb (v : Word) : (respond v s).opb = s.opb := rfl
@[simp] theorem respond_res (v : Word) : (respond v s).res = s.res := rfl
@[simp] theorem respond_key (v : Word) : (respond v s).key = s.key := rfl
@[simp] theorem respond_kwm (v : Word) : (respond v s).kwm = s.kwm := rfl
@[simp] theorem respond_blk (v : Word) : (respond v s).blk = s.blk := rfl
@[simp] theorem respond_sched (v : Word) : (respond v s).sched = s.sched := rfl
@[simp] theorem respond_sbox (v : Word) : (respond v s).sbox = s.sbox := rfl
@[simp] theorem respond_invSbox (v : Word) : (respond v s).invSbox = s.invSbox := rfl
@[simp] theorem respond_mem (v : Word) : (respond v s).mem = s.mem := rfl
@[simp] theorem respond_resp (v : Word) : (respond v s).resp = some ⟨v, false⟩ := rfl
@[simp] theorem respond_agenda (v : Word) : (respond v s).agenda = s.agenda := rfl
@[simp] theorem respond_schedWritten (v : Word) : (respond v s).schedWritten = s.schedWritten := rfl
@[simp] theorem respond_epoch (v : Word) : (respond v s).epoch = s.epoch := rfl
@[simp] theorem respond_draws (v : Word) : (respond v s).draws = s.draws := rfl
@[simp] theorem respond_hostFault (v : Word) : (respond v s).hostFault = s.hostFault := rfl
@[simp] theorem respond_unpadWindow (v : Word) : (respond v s).unpadWindow = s.unpadWindow := rfl

@[simp] theorem refuseRequest_cmd : (refuseRequest s).cmd = s.cmd := rfl
@[simp] theorem refuseRequest_busy : (refuseRequest s).busy = s.busy := rfl
@[simp] theorem refuseRequest_done : (refuseRequest s).done = s.done := rfl
@[simp] theorem refuseRequest_overrun : (refuseRequest s).overrun = s.overrun := rfl
@[simp] theorem refuseRequest_sboxReady : (refuseRequest s).sboxReady = s.sboxReady := rfl
@[simp] theorem refuseRequest_schedValid : (refuseRequest s).schedValid = s.schedValid := rfl
@[simp] theorem refuseRequest_errCode : (refuseRequest s).errCode = s.errCode := rfl
@[simp] theorem refuseRequest_irqEn : (refuseRequest s).irqEn = s.irqEn := rfl
@[simp] theorem refuseRequest_len : (refuseRequest s).len = s.len := rfl
@[simp] theorem refuseRequest_outLen : (refuseRequest s).outLen = s.outLen := rfl
@[simp] theorem refuseRequest_opa : (refuseRequest s).opa = s.opa := rfl
@[simp] theorem refuseRequest_opb : (refuseRequest s).opb = s.opb := rfl
@[simp] theorem refuseRequest_res : (refuseRequest s).res = s.res := rfl
@[simp] theorem refuseRequest_key : (refuseRequest s).key = s.key := rfl
@[simp] theorem refuseRequest_kwm : (refuseRequest s).kwm = s.kwm := rfl
@[simp] theorem refuseRequest_blk : (refuseRequest s).blk = s.blk := rfl
@[simp] theorem refuseRequest_sched : (refuseRequest s).sched = s.sched := rfl
@[simp] theorem refuseRequest_sbox : (refuseRequest s).sbox = s.sbox := rfl
@[simp] theorem refuseRequest_invSbox : (refuseRequest s).invSbox = s.invSbox := rfl
@[simp] theorem refuseRequest_mem : (refuseRequest s).mem = s.mem := rfl
@[simp] theorem refuseRequest_resp : (refuseRequest s).resp = some ⟨0#32, true⟩ := rfl
@[simp] theorem refuseRequest_agenda : (refuseRequest s).agenda = s.agenda := rfl
@[simp] theorem refuseRequest_schedWritten : (refuseRequest s).schedWritten = s.schedWritten := rfl
@[simp] theorem refuseRequest_epoch : (refuseRequest s).epoch = s.epoch := rfl
@[simp] theorem refuseRequest_draws : (refuseRequest s).draws = s.draws := rfl
@[simp] theorem refuseRequest_hostFault : (refuseRequest s).hostFault = true := rfl
@[simp] theorem refuseRequest_unpadWindow : (refuseRequest s).unpadWindow = s.unpadWindow := rfl

@[simp] theorem resetEvent_cmd : (resetEvent s).cmd = State.reset.cmd := rfl
@[simp] theorem resetEvent_busy : (resetEvent s).busy = State.reset.busy := rfl
@[simp] theorem resetEvent_done : (resetEvent s).done = State.reset.done := rfl
@[simp] theorem resetEvent_overrun : (resetEvent s).overrun = State.reset.overrun := rfl
@[simp] theorem resetEvent_sboxReady : (resetEvent s).sboxReady = State.reset.sboxReady := rfl
@[simp] theorem resetEvent_schedValid : (resetEvent s).schedValid = State.reset.schedValid := rfl
@[simp] theorem resetEvent_errCode : (resetEvent s).errCode = State.reset.errCode := rfl
@[simp] theorem resetEvent_irqEn : (resetEvent s).irqEn = State.reset.irqEn := rfl
@[simp] theorem resetEvent_len : (resetEvent s).len = State.reset.len := rfl
@[simp] theorem resetEvent_outLen : (resetEvent s).outLen = State.reset.outLen := rfl
@[simp] theorem resetEvent_opa : (resetEvent s).opa = State.reset.opa := rfl
@[simp] theorem resetEvent_opb : (resetEvent s).opb = State.reset.opb := rfl
@[simp] theorem resetEvent_res : (resetEvent s).res = State.reset.res := rfl
@[simp] theorem resetEvent_key : (resetEvent s).key = State.reset.key := rfl
@[simp] theorem resetEvent_kwm : (resetEvent s).kwm = State.reset.kwm := rfl
@[simp] theorem resetEvent_blk : (resetEvent s).blk = State.reset.blk := rfl
@[simp] theorem resetEvent_sched : (resetEvent s).sched = State.reset.sched := rfl
@[simp] theorem resetEvent_sbox : (resetEvent s).sbox = State.reset.sbox := rfl
@[simp] theorem resetEvent_invSbox : (resetEvent s).invSbox = State.reset.invSbox := rfl
@[simp] theorem resetEvent_mem : (resetEvent s).mem = State.reset.mem := rfl
@[simp] theorem resetEvent_resp : (resetEvent s).resp = State.reset.resp := rfl
@[simp] theorem resetEvent_agenda : (resetEvent s).agenda = s.agenda := rfl
@[simp] theorem resetEvent_schedWritten : (resetEvent s).schedWritten = State.reset.schedWritten := rfl
@[simp] theorem resetEvent_epoch : (resetEvent s).epoch = s.epoch + 1 := rfl
@[simp] theorem resetEvent_draws : (resetEvent s).draws = s.draws := rfl
@[simp] theorem resetEvent_hostFault : (resetEvent s).hostFault = s.hostFault := rfl
@[simp] theorem resetEvent_unpadWindow : (resetEvent s).unpadWindow = s.unpadWindow := rfl

@[simp] theorem storeWord_cmd (a : Nat) (v : Word) : (storeWord a v s).cmd = s.cmd := rfl
@[simp] theorem storeWord_busy (a : Nat) (v : Word) : (storeWord a v s).busy = s.busy := rfl
@[simp] theorem storeWord_done (a : Nat) (v : Word) : (storeWord a v s).done = s.done := rfl
@[simp] theorem storeWord_overrun (a : Nat) (v : Word) : (storeWord a v s).overrun = s.overrun := rfl
@[simp] theorem storeWord_sboxReady (a : Nat) (v : Word) : (storeWord a v s).sboxReady = s.sboxReady := rfl
@[simp] theorem storeWord_schedValid (a : Nat) (v : Word) : (storeWord a v s).schedValid = s.schedValid := rfl
@[simp] theorem storeWord_errCode (a : Nat) (v : Word) : (storeWord a v s).errCode = s.errCode := rfl
@[simp] theorem storeWord_irqEn (a : Nat) (v : Word) : (storeWord a v s).irqEn = s.irqEn := rfl
@[simp] theorem storeWord_len (a : Nat) (v : Word) : (storeWord a v s).len = s.len := rfl
@[simp] theorem storeWord_outLen (a : Nat) (v : Word) : (storeWord a v s).outLen = s.outLen := rfl
@[simp] theorem storeWord_opa (a : Nat) (v : Word) : (storeWord a v s).opa = s.opa := rfl
@[simp] theorem storeWord_opb (a : Nat) (v : Word) : (storeWord a v s).opb = s.opb := rfl
@[simp] theorem storeWord_res (a : Nat) (v : Word) : (storeWord a v s).res = s.res := rfl
@[simp] theorem storeWord_key (a : Nat) (v : Word) : (storeWord a v s).key = s.key := rfl
@[simp] theorem storeWord_kwm (a : Nat) (v : Word) : (storeWord a v s).kwm = s.kwm := rfl
@[simp] theorem storeWord_blk (a : Nat) (v : Word) : (storeWord a v s).blk = s.blk := rfl
@[simp] theorem storeWord_sched (a : Nat) (v : Word) : (storeWord a v s).sched = s.sched := rfl
@[simp] theorem storeWord_sbox (a : Nat) (v : Word) : (storeWord a v s).sbox = s.sbox := rfl
@[simp] theorem storeWord_invSbox (a : Nat) (v : Word) : (storeWord a v s).invSbox = s.invSbox := rfl
@[simp] theorem storeWord_resp (a : Nat) (v : Word) : (storeWord a v s).resp = s.resp := rfl
@[simp] theorem storeWord_agenda (a : Nat) (v : Word) : (storeWord a v s).agenda = s.agenda := rfl
@[simp] theorem storeWord_schedWritten (a : Nat) (v : Word) : (storeWord a v s).schedWritten = s.schedWritten := rfl
@[simp] theorem storeWord_epoch (a : Nat) (v : Word) : (storeWord a v s).epoch = s.epoch := rfl
@[simp] theorem storeWord_draws (a : Nat) (v : Word) : (storeWord a v s).draws = s.draws := rfl
@[simp] theorem storeWord_hostFault (a : Nat) (v : Word) : (storeWord a v s).hostFault = s.hostFault := rfl
@[simp] theorem storeWord_unpadWindow (a : Nat) (v : Word) : (storeWord a v s).unpadWindow = s.unpadWindow := rfl

end Sys2Proof.Machine
end

