-- ==== Sys2Proof/Laws/Exec.lean ====
section
/-! SUPPORT. What the commands and the step can do, said once: every completion of a command, the lengths behind
an ECB completion, and every way a step can go. -/

namespace Sys2Proof.Machine

/-- Every ECB_ENCRYPT output has 16 bytes per chunk (45_ecb_codec.md R223). -/
theorem ecbEncryptBytes_length (sb : Byte → Byte) (w : Vector Word 44) (x : List Byte) :
    (ecbEncryptBytes sb w x).length = 16 * ceilDiv x.length 16 := by
  simp [ecbEncryptBytes, storeState, List.length_flatMap, List.map_const', Nat.mul_comm]

/-- Every decrypt output has 16 bytes per block (R226). -/
theorem ecbDecryptBytes_length (isb : Byte → Byte) (w : Vector Word 44) (x : List Byte) :
    (ecbDecryptBytes isb w x).length = 16 * (x.length / 16) := by
  simp [ecbDecryptBytes, storeState, List.length_flatMap, List.map_const', Nat.mul_comm]

/-- The input of an ECB command has LEN bytes (20_memory.md R71). -/
theorem inputBytes_length (s : State) : (inputBytes s).length = s.len.toNat := by
  simp [inputBytes, inputLength]

theorem encryptOutput_length (s : State) : (encryptOutput s).length = 16 * ceilDiv s.len.toNat 16 := by
  simp [encryptOutput, ecbEncryptBytes_length, inputBytes_length]

theorem decryptOutput_length (s : State) : (decryptOutput s).length = 16 * (s.len.toNat / 16) := by
  simp [decryptOutput, ecbDecryptBytes_length, inputBytes_length]

/-- The unpad heuristic never lengthens. -/
theorem unpadLen_le (window : Nat) (x : List Byte) : unpadLen window x ≤ x.length := by
  unfold unpadLen
  split
  · exact Nat.zero_le _
  · split <;> omega

theorem encryptLenOk_iff (n : Nat) : encryptLenOk n = true ↔ 1 ≤ n ∧ n ≤ 4096 := by
  simp [encryptLenOk, Config.bufBytes]

theorem decryptLenOk_iff (n : Nat) : decryptLenOk n = true ↔ 1 ≤ n ∧ n ≤ 4096 ∧ n % 16 = 0 := by
  simp [decryptLenOk, Config.bufBytes, and_assoc]

/-- The ways a command completes: an error, or success with what its family writes. -/
inductive Completion (i : Instr) (s : State) : State → Prop where
  | error (code : ErrCode) : code ≠ .ok → Completion i s (failed (opcodeOf i) code s)
  | result (v : Word) : (opcodeOf i).toNat / 16 = 1 ∨ (opcodeOf i).toNat / 16 = 2 →
      Completion i s (completed { s with res := v })
  | schedule : (opcodeOf i).toNat / 16 = 3 → keyValid s = true → Completion i s (completed (expandIntoSched s))
  | block (x : AesState) : (opcodeOf i).toNat / 16 = 4 ∨ (opcodeOf i).toNat / 16 = 5 →
      Completion i s (completed (storeBlock x s))
  | ecb (out : List Byte) (n : Nat) : (opcodeOf i).toNat / 16 = 6 → keyValid s = true → out.length ≤ 4096 →
      n ≤ 4096 → Completion i s (completed (ecbResult out n s))

/-- Every command answers a next state, and it is one of the completions. -/
theorem exec_completes (i : Instr) (s : State) : ∃ t, exec i s = .next t ∧ Completion i s t := by
  cases i with
  | gfAdd => exact ⟨_, rfl, .result _ (.inl rfl)⟩
  | gfSub => exact ⟨_, rfl, .result _ (.inl rfl)⟩
  | gfMult => exact ⟨_, rfl, .result _ (.inl rfl)⟩
  | coefAdd => exact ⟨_, rfl, .result _ (.inl rfl)⟩
  | coefMult => exact ⟨_, rfl, .result _ (.inl rfl)⟩
  | sboxLookup => exact ⟨_, rfl, .result _ (.inr rfl)⟩
  | invSboxLookup => exact ⟨_, rfl, .result _ (.inr rfl)⟩
  | keyExpand =>
    simp only [exec, execKeyExpand]
    split
    · rename_i h; exact ⟨_, rfl, .schedule rfl h⟩
    · exact ⟨_, rfl, .error .noKey (by decide)⟩
  | subBytes => exact ⟨_, rfl, .block _ (.inl rfl)⟩
  | shiftRows => exact ⟨_, rfl, .block _ (.inl rfl)⟩
  | mixColumns => exact ⟨_, rfl, .block _ (.inl rfl)⟩
  | addRoundKey r =>
    simp only [exec, execAddRoundKey]
    split
    · split
      · exact ⟨_, rfl, .block _ (.inl (by simp [opcodeOf]))⟩
      · exact ⟨_, rfl, .error .noSched (by decide)⟩
    · exact ⟨_, rfl, .error .illegalCmd (by decide)⟩
  | invSubBytes => exact ⟨_, rfl, .block _ (.inl rfl)⟩
  | invShiftRows => exact ⟨_, rfl, .block _ (.inl rfl)⟩
  | invMixColumns => exact ⟨_, rfl, .block _ (.inl rfl)⟩
  | encryptBlock =>
    simp only [exec, execEncryptBlock]
    split
    · exact ⟨_, rfl, .block _ (.inr rfl)⟩
    · exact ⟨_, rfl, .error .noSched (by decide)⟩
  | decryptBlock =>
    simp only [exec, execDecryptBlock]
    split
    · exact ⟨_, rfl, .block _ (.inr rfl)⟩
    · exact ⟨_, rfl, .error .noSched (by decide)⟩
  | ecbEncrypt =>
    simp only [exec, execEcbEncrypt]
    split
    · rename_i hk
      split
      · rename_i hl
        obtain ⟨h1, h2⟩ := (encryptLenOk_iff _).1 hl
        unfold inputLength at h1 h2
        have h3 : 16 * ceilDiv s.len.toNat 16 ≤ 4096 := by unfold ceilDiv; omega
        exact ⟨_, rfl, .ecb _ _ rfl hk (by rw [encryptOutput_length]; exact h3) h3⟩
      · exact ⟨_, rfl, .error .badLen (by decide)⟩
    · exact ⟨_, rfl, .error .noKey (by decide)⟩
  | ecbDecrypt =>
    simp only [exec, execEcbDecrypt]
    split
    · rename_i hk
      split
      · rename_i hl
        obtain ⟨h1, h2, h3⟩ := (decryptLenOk_iff _).1 hl
        unfold inputLength at h1 h2 h3
        have h4 : (decryptOutput s).length ≤ 4096 := by rw [decryptOutput_length]; omega
        exact ⟨_, rfl, .ecb _ _ rfl hk h4 (Nat.le_trans (unpadLen_le _ _) h4)⟩
      · exact ⟨_, rfl, .error .badLen (by decide)⟩
    · exact ⟨_, rfl, .error .noKey (by decide)⟩
  | ecbDecryptRaw =>
    simp only [exec, execEcbDecryptRaw]
    split
    · rename_i hk
      split
      · rename_i hl
        obtain ⟨h1, h2, h3⟩ := (decryptLenOk_iff _).1 hl
        have h4 : (decryptOutput s).length ≤ 4096 := by
          rw [decryptOutput_length]; unfold inputLength at h2; omega
        exact ⟨_, rfl, .ecb _ _ rfl hk h4 h2⟩
      · exact ⟨_, rfl, .error .badLen (by decide)⟩
    · exact ⟨_, rfl, .error .noKey (by decide)⟩

/-- What a command leaves when it answers a next state. -/
theorem exec_completion {i : Instr} {s t : State} (h : exec i s = .next t) : Completion i s t := by
  obtain ⟨u, hu, hc⟩ := exec_completes i s
  rw [hu] at h
  cases h
  exact hc

/-- The engine's turn, as a relation on the agenda: it moves, and `rest` is left (00_scope.md R15; log entry 1). -/
inductive EngineMoves : List Event → List Event → Prop where
  | last : EngineMoves [] []
  | turn (rest : List Event) : EngineMoves (.engine :: rest) rest

/-- The ways a step goes. -/
inductive Move (s : State) : State → Prop where
  | generates (rest : List Event) : EngineMoves s.agenda rest → s.sboxReady = false →
      Move s (generate { s with agenda := rest })
  | waits (rest : List Event) : EngineMoves s.agenda rest → s.sboxReady = true → s.busy = false →
      Move s { s with agenda := rest }
  | runs (rest : List Event) (i : Instr) (t : State) : EngineMoves s.agenda rest → s.sboxReady = true →
      s.busy = true → decode s.cmd = .ok i → exec i { s with agenda := rest } = .next t → Move s t
  | refuses (rest : List Event) (why : Illegal) : EngineMoves s.agenda rest → s.sboxReady = true → s.busy = true →
      decode s.cmd = .error why → Move s (failed (opField s.cmd) .illegalCmd { s with agenda := rest })
  | host (r : Request) (rest : List Event) : s.agenda = .access r :: rest →
      Move s (hostAccess r { s with agenda := rest })
  | resets (rest : List Event) : s.agenda = .reset :: rest → Move s (resetEvent { s with agenda := rest })

theorem engineStep_moves {s : State} {rest : List Event} (he : EngineMoves s.agenda rest) :
    ∃ t, engineStep { s with agenda := rest } = .next t ∧ Move s t := by
  unfold engineStep
  by_cases hr : s.sboxReady = true
  · rw [if_pos hr]
    by_cases hb : s.busy = true
    · rw [if_pos hb]
      unfold commandStep
      cases hd : decode s.cmd with
      | ok i =>
        obtain ⟨t, ht, -⟩ := exec_completes i { s with agenda := rest }
        exact ⟨t, by simpa only [hd] using ht, .runs rest i t he hr hb hd ht⟩
      | error why => exact ⟨_, by simp only [raiseError], .refuses rest why he hr hb hd⟩
    · rw [if_neg hb]
      exact ⟨_, rfl, .waits rest he hr (by simpa using hb)⟩
  · rw [if_neg hr]
    exact ⟨_, rfl, .generates rest he (by simpa using hr)⟩

/-- Every step answers a next state, and it is one of the moves. -/
theorem step_moves (s : State) : ∃ t, step s = .next t ∧ Move s t := by
  unfold step agentStep
  split
  · rename_i h
    obtain ⟨t, ht, hm⟩ := engineStep_moves (s := s) (rest := []) (h ▸ .last)
    have hs : ({ s with agenda := [] } : State) = s := by cases s; simp_all
    exact ⟨t, hs ▸ ht, hm⟩
  · rename_i rest h
    exact engineStep_moves (h ▸ .turn rest)
  · rename_i r rest h
    exact ⟨_, rfl, .host r rest h⟩
  · rename_i rest h
    exact ⟨_, rfl, .resets rest h⟩

/-- Which move a step was. -/
theorem step_move {s t : State} (h : step s = .next t) : Move s t := by
  obtain ⟨u, hu, hm⟩ := step_moves s
  rw [hu] at h
  cases h
  exact hm

end Sys2Proof.Machine
end

