-- ==== Sys2Proof/Laws/HostPort.lean ====
section
/-! SUPPORT. The laws of the host port: which requests are legal, what each range of the map is, and the ways an
access goes. -/

namespace Sys2Proof.Machine

/-- A request is legal when it is a word access at an aligned offset (20_memory.md R61). -/
theorem legalRequest_iff (r : Request) : legalRequest r = true ↔ r.size = 4 ∧ r.addr.toNat % 4 = 0 := by
  unfold legalRequest
  simp only [Bool.and_eq_true, beq_iff_eq]
  refine and_congr_right fun _ => ⟨fun h => ?_, fun h => ?_⟩
  · simpa using congrArg BitVec.toNat h
  · apply BitVec.eq_of_toNat_eq
    simpa using h

theorem targetOf_key (a : BitVec 14) (k : Fin 4) (h : a.toNat = 0x020 + 4 * k.val) : targetOf a = .key k := by
  have hk := k.isLt
  unfold targetOf
  simp only [h]
  repeat rw [if_neg (by omega)]
  rw [dif_pos (by omega)]
  congr 1
  ext
  simp

theorem targetOf_state (a : BitVec 14) (k : Fin 4) (h : a.toNat = 0x030 + 4 * k.val) : targetOf a = .state k := by
  have hk := k.isLt
  unfold targetOf
  simp only [h]
  repeat rw [if_neg (by omega)]
  rw [dif_neg (by omega), dif_pos (by omega)]
  congr 1
  ext
  simp

theorem targetOf_sched (a : BitVec 14) (i : Fin 44) (h : a.toNat = 0x040 + 4 * i.val) : targetOf a = .sched i := by
  have hi := i.isLt
  unfold targetOf
  simp only [h]
  repeat rw [if_neg (by omega)]
  iterate 2 rw [dif_neg (by omega)]
  rw [dif_pos (by omega)]
  congr 1
  ext
  simp

theorem targetOf_sbox (a : BitVec 14) (k : Fin 64) (h : a.toNat = 0x100 + 4 * k.val) : targetOf a = .sbox k := by
  have hk := k.isLt
  unfold targetOf
  simp only [h]
  repeat rw [if_neg (by omega)]
  iterate 3 rw [dif_neg (by omega)]
  rw [if_neg (by omega), dif_pos (by omega)]
  congr 1
  ext
  simp

theorem targetOf_invSbox (a : BitVec 14) (k : Fin 64) (h : a.toNat = 0x200 + 4 * k.val) :
    targetOf a = .invSbox k := by
  have hk := k.isLt
  unfold targetOf
  simp only [h]
  repeat rw [if_neg (by omega)]
  iterate 3 rw [dif_neg (by omega)]
  rw [if_neg (by omega), dif_neg (by omega), dif_pos (by omega)]
  congr 1
  ext
  simp

theorem targetOf_inBuf (a : BitVec 14) (k : Fin 1024) (h : a.toNat = 0x1000 + 4 * k.val) :
    targetOf a = .inBuf k := by
  have hk := k.isLt
  unfold targetOf
  simp only [h]
  repeat rw [if_neg (by omega)]
  iterate 3 rw [dif_neg (by omega)]
  rw [if_neg (by omega)]
  iterate 2 rw [dif_neg (by omega)]
  rw [if_neg (by omega), dif_pos (by omega)]
  congr 1
  ext
  simp

theorem targetOf_outBuf (a : BitVec 14) (k : Fin 1024) (h : a.toNat = 0x2000 + 4 * k.val) :
    targetOf a = .outBuf k := by
  have hk := k.isLt
  unfold targetOf
  simp only [h]
  repeat rw [if_neg (by omega)]
  iterate 3 rw [dif_neg (by omega)]
  rw [if_neg (by omega)]
  iterate 2 rw [dif_neg (by omega)]
  rw [if_neg (by omega), dif_neg (by omega), dif_pos (by omega)]
  congr 1
  ext
  simp

theorem targetOf_reserved (a : BitVec 14)
    (h : 0x0F0 ≤ a.toNat ∧ a.toNat < 0x100 ∨ 0x300 ≤ a.toNat ∧ a.toNat < 0x1000 ∨ 0x3000 ≤ a.toNat) :
    targetOf a = .reserved := by
  unfold targetOf
  simp only []
  repeat rw [if_neg (by omega)]
  iterate 3 rw [dif_neg (by omega)]
  rcases h with h | h | h
  · rw [if_pos (by omega)]
  · rw [if_neg (by omega)]
    iterate 2 rw [dif_neg (by omega)]
    rw [if_pos (by omega)]
  · rw [if_neg (by omega)]
    iterate 2 rw [dif_neg (by omega)]
    rw [if_neg (by omega)]
    iterate 2 rw [dif_neg (by omega)]

/-- An aligned offset below 0x020 is that of a plain register (10_state.md R20). -/
theorem targetOf_register (a : BitVec 14) :
    (a.toNat = 0x000 → targetOf a = .cmd) ∧ (a.toNat = 0x004 → targetOf a = .status) ∧
    (a.toNat = 0x008 → targetOf a = .ctrl) ∧ (a.toNat = 0x00C → targetOf a = .len) ∧
    (a.toNat = 0x010 → targetOf a = .outLen) ∧ (a.toNat = 0x014 → targetOf a = .opa) ∧
    (a.toNat = 0x018 → targetOf a = .opb) ∧ (a.toNat = 0x01C → targetOf a = .res) := by
  refine ⟨?_, ?_, ?_, ?_, ?_, ?_, ?_, ?_⟩ <;> intro h <;> simp [targetOf, h]

/-- What an aligned offset is: one line per range of the map (10_state.md R20). -/
theorem targetOf_cases (a : BitVec 14) (h : a.toNat % 4 = 0) :
    (a.toNat = 0x000 ∧ targetOf a = .cmd) ∨ (a.toNat = 0x004 ∧ targetOf a = .status) ∨
    (a.toNat = 0x008 ∧ targetOf a = .ctrl) ∨ (a.toNat = 0x00C ∧ targetOf a = .len) ∨
    (a.toNat = 0x010 ∧ targetOf a = .outLen) ∨ (a.toNat = 0x014 ∧ targetOf a = .opa) ∨
    (a.toNat = 0x018 ∧ targetOf a = .opb) ∨ (a.toNat = 0x01C ∧ targetOf a = .res) ∨
    (∃ k : Fin 4, a.toNat = 0x020 + 4 * k.val ∧ targetOf a = .key k) ∨
    (∃ k : Fin 4, a.toNat = 0x030 + 4 * k.val ∧ targetOf a = .state k) ∨
    (∃ k : Fin 44, a.toNat = 0x040 + 4 * k.val ∧ targetOf a = .sched k) ∨
    (∃ k : Fin 64, a.toNat = 0x100 + 4 * k.val ∧ targetOf a = .sbox k) ∨
    (∃ k : Fin 64, a.toNat = 0x200 + 4 * k.val ∧ targetOf a = .invSbox k) ∨
    (∃ k : Fin 1024, a.toNat = 0x1000 + 4 * k.val ∧ targetOf a = .inBuf k) ∨
    (∃ k : Fin 1024, a.toNat = 0x2000 + 4 * k.val ∧ targetOf a = .outBuf k) ∨
    ((0x0F0 ≤ a.toNat ∧ a.toNat < 0x100 ∨ 0x300 ≤ a.toNat ∧ a.toNat < 0x1000 ∨ 0x3000 ≤ a.toNat) ∧
      targetOf a = .reserved) := by
  obtain ⟨r0, r1, r2, r3, r4, r5, r6, r7⟩ := targetOf_register a
  by_cases h1 : a.toNat < 0x020
  · have : a.toNat = 0 ∨ a.toNat = 4 ∨ a.toNat = 8 ∨ a.toNat = 12 ∨ a.toNat = 16 ∨ a.toNat = 20 ∨ a.toNat = 24 ∨
        a.toNat = 28 := by omega
    grind
  by_cases h2 : a.toNat < 0x030
  · have e : a.toNat = 0x020 + 4 * ((a.toNat - 0x020) / 4) := by omega
    have := targetOf_key a ⟨(a.toNat - 0x020) / 4, by omega⟩ e
    grind
  by_cases h3 : a.toNat < 0x040
  · have e : a.toNat = 0x030 + 4 * ((a.toNat - 0x030) / 4) := by omega
    have := targetOf_state a ⟨(a.toNat - 0x030) / 4, by omega⟩ e
    grind
  by_cases h4 : a.toNat < 0x0F0
  · have e : a.toNat = 0x040 + 4 * ((a.toNat - 0x040) / 4) := by omega
    have := targetOf_sched a ⟨(a.toNat - 0x040) / 4, by omega⟩ e
    grind
  by_cases h5 : 0x0F0 ≤ a.toNat ∧ a.toNat < 0x100 ∨ 0x300 ≤ a.toNat ∧ a.toNat < 0x1000 ∨ 0x3000 ≤ a.toNat
  · have := targetOf_reserved a h5
    grind
  by_cases h6 : a.toNat < 0x200
  · have e : a.toNat = 0x100 + 4 * ((a.toNat - 0x100) / 4) := by omega
    have := targetOf_sbox a ⟨(a.toNat - 0x100) / 4, by omega⟩ e
    grind
  by_cases h7 : a.toNat < 0x300
  · have e : a.toNat = 0x200 + 4 * ((a.toNat - 0x200) / 4) := by omega
    have := targetOf_invSbox a ⟨(a.toNat - 0x200) / 4, by omega⟩ e
    grind
  by_cases h8 : a.toNat < 0x2000
  · have e : a.toNat = 0x1000 + 4 * ((a.toNat - 0x1000) / 4) := by omega
    have := targetOf_inBuf a ⟨(a.toNat - 0x1000) / 4, by omega⟩ e
    grind
  · have e : a.toNat = 0x2000 + 4 * ((a.toNat - 0x2000) / 4) := by omega
    have := targetOf_outBuf a ⟨(a.toNat - 0x2000) / 4, by omega⟩ e
    grind

/-- The ways an access of the host goes. -/
inductive Served (r : Request) (s : State) : State → Prop where
  | refused : legalRequest r = false → Served r s (refuseRequest s)
  | dropped : legalRequest r = true → r.we = true → s.busy = true → droppedWhileBusy (targetOf r.addr) = true →
      Served r s (respondDraw { s with overrun := true })
  | written : legalRequest r = true → r.we = true →
      (s.busy = true → droppedWhileBusy (targetOf r.addr) = false) →
      Served r s (respondDraw (writeTarget r.wdata s (targetOf r.addr)))
  | drawn : legalRequest r = true → r.we = false → readIsDraw s (targetOf r.addr) = true →
      Served r s (respondDraw s)
  | read : legalRequest r = true → r.we = false → readIsDraw s (targetOf r.addr) = false →
      Served r s (respond (readTarget s (targetOf r.addr)) s)

/-- Every access is served in one of the ways. -/
theorem hostAccess_served (r : Request) (s : State) : Served r s (hostAccess r s) := by
  unfold hostAccess hostWrite
  by_cases hl : legalRequest r = true
  · rw [if_pos hl]
    by_cases hw : r.we = true
    · rw [if_pos hw]
      by_cases hd : (s.busy && droppedWhileBusy (targetOf r.addr)) = true
      · rw [if_pos hd]
        rw [Bool.and_eq_true] at hd
        exact .dropped hl hw hd.1 hd.2
      · rw [if_neg hd]
        exact .written hl hw fun hb => by simpa [hb] using hd
    · rw [if_neg hw]
      by_cases hd : readIsDraw s (targetOf r.addr) = true
      · rw [if_pos hd]
        exact .drawn hl (by simpa using hw) hd
      · rw [if_neg hd]
        exact .read hl (by simpa using hw) (by simpa using hd)
  · rw [if_neg hl]
    exact .refused (by simpa using hl)

end Sys2Proof.Machine
end

