-- ==== Sys2Proof/Laws/Lanes.lean ====
section
/-! SUPPORT. The laws of byte lanes, of AES words in registers and of the block in STATE. -/

namespace Sys2Proof.Machine

/-- An AES word put into a register reads back. -/
@[simp] theorem aesOfWord_wordOfAes (a : AesWord) : aesOfWord (wordOfAes a) = a := by
  obtain ⟨b0, b1, b2, b3⟩ := a
  simp only [aesOfWord, wordOfAes, laneByte, AesWord.mk.injEq]
  refine ⟨?_, ?_, ?_, ?_⟩ <;> apply BitVec.eq_of_getLsbD_eq <;> intro i hi <;>
    simp only [BitVec.getLsbD_extractLsb', BitVec.getLsbD_append]
  · have h : ¬ 24 + i < 8 ∧ ¬ 24 + i - 8 < 8 ∧ ¬ 24 + i - 8 - 8 < 8 ∧ 24 + i - 8 - 8 - 8 = i := by omega
    simp [hi, h]
  · have h : ¬ 16 + i < 8 ∧ ¬ 16 + i - 8 < 8 ∧ 16 + i - 8 - 8 = i := by omega
    simp [hi, h]
  · have h : ¬ 8 + i < 8 ∧ 8 + i - 8 = i := by omega
    simp [hi, h]
  · simp [hi]

/-- A register read as an AES word and stored again is the same register. -/
@[simp] theorem wordOfAes_aesOfWord (w : Word) : wordOfAes (aesOfWord w) = w := by
  simp only [aesOfWord, wordOfAes, laneByte]
  apply BitVec.eq_of_getLsbD_eq
  intro i hi
  simp only [BitVec.getLsbD_extractLsb', BitVec.getLsbD_append]
  by_cases h0 : i < 8
  · simp [h0]
  · by_cases h1 : i < 16
    · have h : i - 8 < 8 ∧ 8 + (i - 8) = i := by omega
      simp [h0, h]
    · by_cases h2 : i < 24
      · have h : ¬ i - 8 < 8 ∧ i - 8 - 8 < 8 ∧ 16 + (i - 8 - 8) = i := by omega
        simp [h0, h]
      · have h : ¬ i - 8 < 8 ∧ ¬ i - 8 - 8 < 8 ∧ i - 8 - 8 - 8 < 8 ∧ 24 + (i - 8 - 8 - 8) = i := by omega
        simp [h0, h]

/-- Addition of AES words is the exclusive OR of their registers. -/
theorem wordOfAes_coefAdd (a b : AesWord) : wordOfAes (coefAdd a b) = wordOfAes a ^^^ wordOfAes b := by
  simp only [wordOfAes, coefAdd, gadd]
  rw [← BitVec.xor_append, ← BitVec.xor_append, ← BitVec.xor_append]

/-- The block stored into STATE reads back. -/
@[simp] theorem loadBlock_storeBlock (x : AesState) (s : State) : loadBlock (storeBlock x s) = x := by
  simp [loadBlock, storeBlock]

/-- The bytes of a state built byte by byte. -/
@[simp] theorem stateByte_stateOf (f : Fin 4 → Fin 4 → Byte) (r c : Fin 4) : stateByte (stateOf f) r c = f r c := by
  revert r c
  simp [Fin.forall_fin_succ, stateByte, stateOf, aesByte]

/-- Two states with the same bytes are the same. -/
theorem aesState_ext_byte {x y : AesState} (h : ∀ r c, stateByte x r c = stateByte y r c) : x = y := by
  simp only [Fin.forall_fin_succ, stateByte, aesByte] at h
  ext : 2 <;> simp_all

end Sys2Proof.Machine
end

