-- ==== Sys2Proof/Laws/PerInstr.lean ====
section
/-! SUPPORT. What is proved of every command as syntax, one lemma per constructor. -/

namespace Sys2Proof.Laws

/-- The word of a command has RSV = 0 and the command's OP and RND in their fields, and a well-formed command's word
is a valid command word (30_encoding.md R90, R92, R93). -/
def EncodeShape.Statement (i : Instr) : Prop :=
  rsvField (encode i) = 0#20 ∧ opField (encode i) = opcodeOf i ∧ rndField (encode i) = roundOf i ∧
    (i.wf = true → validCommand (encode i) = true)

namespace EncodeShape

theorem gfAdd : Statement .gfAdd := ⟨rfl, rfl, rfl, fun _ => rfl⟩

theorem gfSub : Statement .gfSub := ⟨rfl, rfl, rfl, fun _ => rfl⟩

theorem gfMult : Statement .gfMult := ⟨rfl, rfl, rfl, fun _ => rfl⟩

theorem coefAdd : Statement .coefAdd := ⟨rfl, rfl, rfl, fun _ => rfl⟩

theorem coefMult : Statement .coefMult := ⟨rfl, rfl, rfl, fun _ => rfl⟩

theorem sboxLookup : Statement .sboxLookup := ⟨rfl, rfl, rfl, fun _ => rfl⟩

theorem invSboxLookup : Statement .invSboxLookup := ⟨rfl, rfl, rfl, fun _ => rfl⟩

theorem keyExpand : Statement .keyExpand := ⟨rfl, rfl, rfl, fun _ => rfl⟩

theorem subBytes : Statement .subBytes := ⟨rfl, rfl, rfl, fun _ => rfl⟩

theorem shiftRows : Statement .shiftRows := ⟨rfl, rfl, rfl, fun _ => rfl⟩

theorem mixColumns : Statement .mixColumns := ⟨rfl, rfl, rfl, fun _ => rfl⟩

theorem addRoundKey (rnd : BitVec 4) : Statement (.addRoundKey rnd) := by
  unfold Statement
  revert rnd
  decide

theorem invSubBytes : Statement .invSubBytes := ⟨rfl, rfl, rfl, fun _ => rfl⟩

theorem invShiftRows : Statement .invShiftRows := ⟨rfl, rfl, rfl, fun _ => rfl⟩

theorem invMixColumns : Statement .invMixColumns := ⟨rfl, rfl, rfl, fun _ => rfl⟩

theorem encryptBlock : Statement .encryptBlock := ⟨rfl, rfl, rfl, fun _ => rfl⟩

theorem decryptBlock : Statement .decryptBlock := ⟨rfl, rfl, rfl, fun _ => rfl⟩

theorem ecbEncrypt : Statement .ecbEncrypt := ⟨rfl, rfl, rfl, fun _ => rfl⟩

theorem ecbDecrypt : Statement .ecbDecrypt := ⟨rfl, rfl, rfl, fun _ => rfl⟩

theorem ecbDecryptRaw : Statement .ecbDecryptRaw := ⟨rfl, rfl, rfl, fun _ => rfl⟩

end EncodeShape

end Sys2Proof.Laws
end

