-- ==== Sys2Proof/Laws/Sbox.lean ====
section
/-! SUPPORT. The law of the inverse-table generation, for any one-to-one table. -/

namespace Sys2Proof.Machine

/-- After the writes `INV[sb[x]] <- x` for the entries of `l`, entry `sb[x]` is `x` for every `x` of `l`
(41_sbox.md R133). -/
theorem foldl_set_inverse (sb : Vector Byte 256) (hinj : ∀ x y : Fin 256, sb[x] = sb[y] → x = y)
    (l : List (Fin 256)) (t : Vector Byte 256) (x : Fin 256) (hx : x ∈ l) :
    (l.foldl (fun t x => t.set sb[x].toNat (BitVec.ofNat 8 x.val) sb[x].isLt) t)[sb[x].toNat]'sb[x].isLt =
      BitVec.ofNat 8 x.val := by
  induction l using List.reverseRecOn with
  | nil => simp at hx
  | append_singleton l a ih =>
    simp only [List.foldl_append, List.foldl_cons, List.foldl_nil]
    rw [Vector.getElem_set]
    by_cases h : sb[a].toNat = sb[x].toNat
    · rw [if_pos h, hinj a x (BitVec.eq_of_toNat_eq h)]
    · rw [if_neg h]
      refine ih ((List.mem_append.1 hx).resolve_right fun hxa => h ?_)
      rw [List.mem_singleton.1 hxa]

/-- The generated inverse of a one-to-one table undoes it. -/
theorem invSboxTable_undoes (sb old : Vector Byte 256) (hinj : ∀ x y : Fin 256, sb[x] = sb[y] → x = y) (x : Byte) :
    (invSboxTable sb old)[(sb[x.toNat]).toNat] = x := by
  have h := foldl_set_inverse sb hinj (List.finRange 256) old ⟨x.toNat, x.isLt⟩ (List.mem_finRange _)
  simpa [invSboxTable] using h

end Sys2Proof.Machine
end

