-- ==== Sys2Proof/Tests/Slice0.lean ====
section
/-! SUPPORT. The model's own tests: the well-formedness smoke, decoding of words written out from 30_encoding.md, one
vector of 95_test_vectors.md per command, the host port, and for every statement with hypotheses a state that meets
them. Expected values are those of spec/95_test_vectors.md, by the names they have there. -/

namespace Sys2Proof.Tests

open Sys2Proof.Machine Sys2Proof.Claims

/-! ## States -/

/-- The tables of 41_sbox.md R136 and R137. -/
def sboxR136 : List Byte :=
  [0x63, 0x7c, 0x77, 0x7b, 0xf2, 0x6b, 0x6f, 0xc5, 0x30, 0x01, 0x67, 0x2b, 0xfe, 0xd7, 0xab, 0x76] ++
  [0xca, 0x82, 0xc9, 0x7d, 0xfa, 0x59, 0x47, 0xf0, 0xad, 0xd4, 0xa2, 0xaf, 0x9c, 0xa4, 0x72, 0xc0] ++
  [0xb7, 0xfd, 0x93, 0x26, 0x36, 0x3f, 0xf7, 0xcc, 0x34, 0xa5, 0xe5, 0xf1, 0x71, 0xd8, 0x31, 0x15] ++
  [0x04, 0xc7, 0x23, 0xc3, 0x18, 0x96, 0x05, 0x9a, 0x07, 0x12, 0x80, 0xe2, 0xeb, 0x27, 0xb2, 0x75] ++
  [0x09, 0x83, 0x2c, 0x1a, 0x1b, 0x6e, 0x5a, 0xa0, 0x52, 0x3b, 0xd6, 0xb3, 0x29, 0xe3, 0x2f, 0x84] ++
  [0x53, 0xd1, 0x00, 0xed, 0x20, 0xfc, 0xb1, 0x5b, 0x6a, 0xcb, 0xbe, 0x39, 0x4a, 0x4c, 0x58, 0xcf] ++
  [0xd0, 0xef, 0xaa, 0xfb, 0x43, 0x4d, 0x33, 0x85, 0x45, 0xf9, 0x02, 0x7f, 0x50, 0x3c, 0x9f, 0xa8] ++
  [0x51, 0xa3, 0x40, 0x8f, 0x92, 0x9d, 0x38, 0xf5, 0xbc, 0xb6, 0xda, 0x21, 0x10, 0xff, 0xf3, 0xd2] ++
  [0xcd, 0x0c, 0x13, 0xec, 0x5f, 0x97, 0x44, 0x17, 0xc4, 0xa7, 0x7e, 0x3d, 0x64, 0x5d, 0x19, 0x73] ++
  [0x60, 0x81, 0x4f, 0xdc, 0x22, 0x2a, 0x90, 0x88, 0x46, 0xee, 0xb8, 0x14, 0xde, 0x5e, 0x0b, 0xdb] ++
  [0xe0, 0x32, 0x3a, 0x0a, 0x49, 0x06, 0x24, 0x5c, 0xc2, 0xd3, 0xac, 0x62, 0x91, 0x95, 0xe4, 0x79] ++
  [0xe7, 0xc8, 0x37, 0x6d, 0x8d, 0xd5, 0x4e, 0xa9, 0x6c, 0x56, 0xf4, 0xea, 0x65, 0x7a, 0xae, 0x08] ++
  [0xba, 0x78, 0x25, 0x2e, 0x1c, 0xa6, 0xb4, 0xc6, 0xe8, 0xdd, 0x74, 0x1f, 0x4b, 0xbd, 0x8b, 0x8a] ++
  [0x70, 0x3e, 0xb5, 0x66, 0x48, 0x03, 0xf6, 0x0e, 0x61, 0x35, 0x57, 0xb9, 0x86, 0xc1, 0x1d, 0x9e] ++
  [0xe1, 0xf8, 0x98, 0x11, 0x69, 0xd9, 0x8e, 0x94, 0x9b, 0x1e, 0x87, 0xe9, 0xce, 0x55, 0x28, 0xdf] ++
  [0x8c, 0xa1, 0x89, 0x0d, 0xbf, 0xe6, 0x42, 0x68, 0x41, 0x99, 0x2d, 0x0f, 0xb0, 0x54, 0xbb, 0x16]

def invSboxR137 : List Byte :=
  [0x52, 0x09, 0x6a, 0xd5, 0x30, 0x36, 0xa5, 0x38, 0xbf, 0x40, 0xa3, 0x9e, 0x81, 0xf3, 0xd7, 0xfb] ++
  [0x7c, 0xe3, 0x39, 0x82, 0x9b, 0x2f, 0xff, 0x87, 0x34, 0x8e, 0x43, 0x44, 0xc4, 0xde, 0xe9, 0xcb] ++
  [0x54, 0x7b, 0x94, 0x32, 0xa6, 0xc2, 0x23, 0x3d, 0xee, 0x4c, 0x95, 0x0b, 0x42, 0xfa, 0xc3, 0x4e] ++
  [0x08, 0x2e, 0xa1, 0x66, 0x28, 0xd9, 0x24, 0xb2, 0x76, 0x5b, 0xa2, 0x49, 0x6d, 0x8b, 0xd1, 0x25] ++
  [0x72, 0xf8, 0xf6, 0x64, 0x86, 0x68, 0x98, 0x16, 0xd4, 0xa4, 0x5c, 0xcc, 0x5d, 0x65, 0xb6, 0x92] ++
  [0x6c, 0x70, 0x48, 0x50, 0xfd, 0xed, 0xb9, 0xda, 0x5e, 0x15, 0x46, 0x57, 0xa7, 0x8d, 0x9d, 0x84] ++
  [0x90, 0xd8, 0xab, 0x00, 0x8c, 0xbc, 0xd3, 0x0a, 0xf7, 0xe4, 0x58, 0x05, 0xb8, 0xb3, 0x45, 0x06] ++
  [0xd0, 0x2c, 0x1e, 0x8f, 0xca, 0x3f, 0x0f, 0x02, 0xc1, 0xaf, 0xbd, 0x03, 0x01, 0x13, 0x8a, 0x6b] ++
  [0x3a, 0x91, 0x11, 0x41, 0x4f, 0x67, 0xdc, 0xea, 0x97, 0xf2, 0xcf, 0xce, 0xf0, 0xb4, 0xe6, 0x73] ++
  [0x96, 0xac, 0x74, 0x22, 0xe7, 0xad, 0x35, 0x85, 0xe2, 0xf9, 0x37, 0xe8, 0x1c, 0x75, 0xdf, 0x6e] ++
  [0x47, 0xf1, 0x1a, 0x71, 0x1d, 0x29, 0xc5, 0x89, 0x6f, 0xb7, 0x62, 0x0e, 0xaa, 0x18, 0xbe, 0x1b] ++
  [0xfc, 0x56, 0x3e, 0x4b, 0xc6, 0xd2, 0x79, 0x20, 0x9a, 0xdb, 0xc0, 0xfe, 0x78, 0xcd, 0x5a, 0xf4] ++
  [0x1f, 0xdd, 0xa8, 0x33, 0x88, 0x07, 0xc7, 0x31, 0xb1, 0x12, 0x10, 0x59, 0x27, 0x80, 0xec, 0x5f] ++
  [0x60, 0x51, 0x7f, 0xa9, 0x19, 0xb5, 0x4a, 0x0d, 0x2d, 0xe5, 0x7a, 0x9f, 0x93, 0xc9, 0x9c, 0xef] ++
  [0xa0, 0xe0, 0x3b, 0x4d, 0xae, 0x2a, 0xf5, 0xb0, 0xc8, 0xeb, 0xbb, 0x3c, 0x83, 0x53, 0x99, 0x61] ++
  [0x17, 0x2b, 0x04, 0x7e, 0xba, 0x77, 0xd6, 0x26, 0xe1, 0x69, 0x14, 0x63, 0x55, 0x21, 0x0c, 0x7d]

/-- The schedule of FIPS-197 Appendix A.1 (95_test_vectors.md section 1.2). -/
def schedA1 : List Word :=
  [0x2b7e1516, 0x28aed2a6, 0xabf71588, 0x09cf4f3c, 0xa0fafe17, 0x88542cb1, 0x23a33939, 0x2a6c7605] ++
  [0xf2c295f2, 0x7a96b943, 0x5935807a, 0x7359f67f, 0x3d80477d, 0x4716fe3e, 0x1e237e44, 0x6d7a883b] ++
  [0xef44a541, 0xa8525b7f, 0xb671253b, 0xdb0bad00, 0xd4d1c6f8, 0x7c839d87, 0xcaf2b8bc, 0x11f915bc] ++
  [0x6d88a37a, 0x110b3efd, 0xdbf98641, 0xca0093fd, 0x4e54f70e, 0x5f5fc9f3, 0x84a64fb2, 0x4ea6dc4f] ++
  [0xead27321, 0xb58dbad2, 0x312bf560, 0x7f8d292f, 0xac7766f3, 0x19fadc21, 0x28d12941, 0x575c006e] ++
  [0xd014f9a8, 0xc9ee2589, 0xe13f0cc8, 0xb6630ca6]

/-- After generation, nothing else done. -/
def ready : State :=
  { State.reset with
    sboxReady := true
    sbox := ⟨sboxR136.toArray, by decide +kernel⟩
    invSbox := ⟨invSboxR137.toArray, by decide +kernel⟩ }

/-- The key of FIPS-197 Appendix A.1, expanded. -/
def scheduled : State :=
  { ready with
    key := #v[0x2b7e1516#32, 0x28aed2a6#32, 0xabf71588#32, 0x09cf4f3c#32]
    kwm := 0b1111#4
    sched := ⟨schedA1.toArray, by decide +kernel⟩
    schedWritten := true
    schedValid := true }

/-- The key `000102...0f`, an input and its length. -/
def keyed (x : List Byte) : State :=
  { ready with
    key := #v[0x00010203#32, 0x04050607#32, 0x08090a0b#32, 0x0c0d0e0f#32]
    kwm := 0b1111#4
    mem := Memory.writeBytes [] inBufBase x
    len := BitVec.ofNat 32 x.length }

/-- A check of the next state of a command. -/
def after (i : Instr) (s : State) (p : State → Bool) : Bool :=
  match exec i s with
  | .next t => p t
  | .fault _ => false
  | .refused _ => false

/-- A check of the next state of a step. -/
def afterStep (s : State) (p : State → Bool) : Bool :=
  match step s with
  | .next t => p t
  | .fault _ => false
  | .refused _ => false

/-- Success, and the given words in STATE. -/
def blockIs (b : Vector Word 4) (t : State) : Bool := t.blk == b && t.done && t.errCode == .ok && !t.busy

/-- An ECB completion with the given output length and bytes. -/
def outIs (n : Nat) (x : List Byte) (t : State) : Bool :=
  t.outLen.toNat == n && memBytes t outBufBase x.length == x && t.errCode == .ok && t.schedValid

/-- A pending command. -/
def pending (c : Word) (s : State) : State := { s with cmd := c, busy := true, agenda := [.engine] }

/-- The host's next access is a write or a read. -/
def writing (a : BitVec 14) (v : Word) (s : State) : State := { s with agenda := [.access ⟨true, a, 4, v⟩] }

def reading (a : BitVec 14) (s : State) : State := { s with agenda := [.access ⟨false, a, 4, 0#32⟩] }

/-! ## Well-formedness and decoding -/

theorem test_wf_refuses_rounds_over_10 :
    (Instr.addRoundKey 11).wf = false ∧ (Instr.addRoundKey 12).wf = false ∧ (Instr.addRoundKey 13).wf = false ∧
    (Instr.addRoundKey 14).wf = false ∧ (Instr.addRoundKey 15).wf = false ∧ (Instr.addRoundKey 10).wf = true := by
  decide

/-! W4, W5, W11: each word bit by bit, RSV then RND then OP. -/

theorem test_decode_galois :
    decode 0b00000000000000000000000000010000#32 = .ok .gfAdd ∧
    decode 0b00000000000000000000000000010001#32 = .ok .gfSub ∧
    decode 0b00000000000000000000000000010010#32 = .ok .gfMult ∧
    decode 0b00000000000000000000000000010011#32 = .ok .coefAdd ∧
    decode 0b00000000000000000000000000010100#32 = .ok .coefMult := by decide

theorem test_decode_sbox :
    decode 0b00000000000000000000000000100000#32 = .ok .sboxLookup ∧
    decode 0b00000000000000000000000000100001#32 = .ok .invSboxLookup := by decide

theorem test_decode_key :
    decode 0b00000000000000000000000000110000#32 = .ok .keyExpand := by decide

theorem test_decode_round :
    decode 0b00000000000000000000000001000000#32 = .ok .subBytes ∧
    decode 0b00000000000000000000000001000001#32 = .ok .shiftRows ∧
    decode 0b00000000000000000000000001000010#32 = .ok .mixColumns ∧
    decode 0b00000000000000000000000001000100#32 = .ok .invSubBytes ∧
    decode 0b00000000000000000000000001000101#32 = .ok .invShiftRows ∧
    decode 0b00000000000000000000000001000110#32 = .ok .invMixColumns ∧
    decode 0b00000000000000000000000001000011#32 = .ok (.addRoundKey 0) ∧
    decode 0b00000000000000000000101001000011#32 = .ok (.addRoundKey 10) := by decide

theorem test_decode_block :
    decode 0b00000000000000000000000001010000#32 = .ok .encryptBlock ∧
    decode 0b00000000000000000000000001010001#32 = .ok .decryptBlock := by decide

theorem test_decode_ecb :
    decode 0b00000000000000000000000001100000#32 = .ok .ecbEncrypt ∧
    decode 0b00000000000000000000000001100001#32 = .ok .ecbDecrypt ∧
    decode 0b00000000000000000000000001100010#32 = .ok .ecbDecryptRaw := by decide

/-- W1, W2, W3: no opcode. -/
theorem test_decode_rejects_opcodes : decode 0x00000000#32 = .error .unknownOpcode ∧
    decode 0x000000ff#32 = .error .unknownOpcode ∧ decode 0x00000015#32 = .error .unknownOpcode := by decide

/-- W6, W7, W10, and O21: a round index where none is allowed. -/
theorem test_decode_rejects_rounds : decode 0x00000b43#32 = .error .badRound ∧
    decode 0x00000f43#32 = .error .badRound ∧ decode 0x00000150#32 = .error .badRound ∧
    decode 0x00000140#32 = .error .badRound := by decide

/-- W8, W9: reserved bits. -/
theorem test_decode_rejects_reserved : decode 0x00001043#32 = .error .reservedNotZero ∧
    decode 0x80000050#32 = .error .reservedNotZero := by decide

theorem test_decodeTableWord : decodeTableWord 32 0x00000543 = some (.addRoundKey 5) ∧
    decodeTableWord 32 0x00000b43 = none ∧ decodeTableWord 16 0x10000060 = some .ecbEncrypt := by decide

/-! ## One vector per command -/

/-- F3. -/
theorem test_gf_add : after .gfAdd { ready with opa := 0xffffff57#32, opb := 0x12345683#32 }
    (fun t => t.res == 0x000000d4#32 && t.done && t.errCode == .ok) = true := by decide +kernel

/-- F2. -/
theorem test_gf_sub : after .gfSub { ready with opa := 0x00000057#32, opb := 0x00000083#32 }
    (fun t => t.res == 0x000000d4#32 && t.done && t.errCode == .ok) = true := by decide +kernel

/-- F14. -/
theorem test_gf_mult : after .gfMult { ready with opa := 0xffffff57#32, opb := 0xffffff83#32 }
    (fun t => t.res == 0x000000c1#32 && t.done && t.errCode == .ok) = true := by decide +kernel

/-- F10. -/
theorem test_gf_mult_reduces : after .gfMult { ready with opa := 0x000000ff#32, opb := 0x000000ff#32 }
    (fun t => t.res == 0x00000013#32 && t.done && t.errCode == .ok) = true := by decide +kernel

/-- F27. -/
theorem test_coef_add : after .coefAdd { ready with opa := 0x0e090d0b#32, opb := 0x8e4da1bc#32 }
    (fun t => t.res == 0x8044acb7#32 && t.done && t.errCode == .ok) = true := by decide +kernel

/-- F15. -/
theorem test_coef_mult : after .coefMult { ready with opa := 0x02010103#32, opb := 0xdb135345#32 }
    (fun t => t.res == 0x8e4da1bc#32 && t.done && t.errCode == .ok) = true := by decide +kernel

/-- F24. -/
theorem test_coef_mult_rotates : after .coefMult { ready with opa := 0x00010000#32, opb := 0xa1b2c3d4#32 }
    (fun t => t.res == 0xd4a1b2c3#32 && t.done && t.errCode == .ok) = true := by decide +kernel

/-- T5. -/
theorem test_sbox_lookup : after .sboxLookup { ready with opa := 0xffffff53#32, opb := 0x00000000#32 }
    (fun t => t.res == 0x000000ed#32 && t.done && t.errCode == .ok) = true := by decide +kernel

/-- T9. -/
theorem test_inv_sbox_lookup : after .invSboxLookup { ready with opa := 0x00000016#32, opb := 0x00000000#32 }
    (fun t => t.res == 0x000000ff#32 && t.done && t.errCode == .ok) = true := by decide +kernel

/-- FIPS-197 Appendix A.1. -/
theorem test_key_expand : after .keyExpand { scheduled with sched := Vector.replicate 44 0#32 }
    (fun t => t.sched.toList == schedA1 && t.schedValid) = true := by decide +kernel

/-- K3. -/
theorem test_key_expand_no_key : after .keyExpand { ready with kwm := 0b0111#4 }
    (fun t => t.errCode == .noKey && !t.schedValid && !t.schedWritten) = true := by decide +kernel

/-- O2. -/
theorem test_sub_bytes : after .subBytes { scheduled with blk := #v[0x193de3be#32, 0xa0f4e22b#32, 0x9ac68d2a#32, 0xe9f84808#32] }
    (blockIs #v[0xd42711ae#32, 0xe0bf98f1#32, 0xb8b45de5#32, 0x1e415230#32]) = true := by decide +kernel

/-- O11. -/
theorem test_shift_rows : after .shiftRows { scheduled with blk := #v[0x00010203#32, 0x04050607#32, 0x08090a0b#32, 0x0c0d0e0f#32] }
    (blockIs #v[0x00050a0f#32, 0x04090e03#32, 0x080d0207#32, 0x0c01060b#32]) = true := by decide +kernel

/-- O16. -/
theorem test_mix_columns : after .mixColumns { scheduled with blk := #v[0xdb135345#32, 0xf20a225c#32, 0x01010101#32, 0xc6c6c6c6#32] }
    (blockIs #v[0x8e4da1bc#32, 0x9fdc589d#32, 0x01010101#32, 0xc6c6c6c6#32]) = true := by decide +kernel

/-- O5. -/
theorem test_add_round_key : after (.addRoundKey 1) { scheduled with blk := #v[0x046681e5#32, 0xe0cb199a#32, 0x48f8d37a#32, 0x2806264c#32] }
    (blockIs #v[0xa49c7ff2#32, 0x689f352b#32, 0x6b5bea43#32, 0x026a5049#32]) = true := by decide +kernel

/-- O20. -/
theorem test_add_round_key_no_sched : after (.addRoundKey 1) ready (fun t => t.errCode == .noSched && t.blk == ready.blk) = true := by decide +kernel

/-- O9. -/
theorem test_inv_sub_bytes : after .invSubBytes { scheduled with blk := #v[0xd42711ae#32, 0xe0bf98f1#32, 0xb8b45de5#32, 0x1e415230#32] }
    (blockIs #v[0x193de3be#32, 0xa0f4e22b#32, 0x9ac68d2a#32, 0xe9f84808#32]) = true := by decide +kernel

/-- O12. -/
theorem test_inv_shift_rows : after .invShiftRows { scheduled with blk := #v[0x00010203#32, 0x04050607#32, 0x08090a0b#32, 0x0c0d0e0f#32] }
    (blockIs #v[0x000d0a07#32, 0x04010e0b#32, 0x0805020f#32, 0x0c090603#32]) = true := by decide +kernel

/-- O17. -/
theorem test_inv_mix_columns : after .invMixColumns { scheduled with blk := #v[0x8e4da1bc#32, 0x9fdc589d#32, 0x01010101#32, 0xc6c6c6c6#32] }
    (blockIs #v[0xdb135345#32, 0xf20a225c#32, 0x01010101#32, 0xc6c6c6c6#32]) = true := by decide +kernel

/-- B1. -/
theorem test_encrypt_block : after .encryptBlock { scheduled with blk := #v[0x3243f6a8#32, 0x885a308d#32, 0x313198a2#32, 0xe0370734#32] }
    (blockIs #v[0x3925841d#32, 0x02dc09fb#32, 0xdc118597#32, 0x196a0b32#32]) = true := by decide +kernel

/-- B6. -/
theorem test_decrypt_block : after .decryptBlock { scheduled with blk := #v[0x3925841d#32, 0x02dc09fb#32, 0xdc118597#32, 0x196a0b32#32] }
    (blockIs #v[0x3243f6a8#32, 0x885a308d#32, 0x313198a2#32, 0xe0370734#32]) = true := by decide +kernel

/-- E5. -/
theorem test_ecb_encrypt : after .ecbEncrypt (keyed [0x48, 0x65, 0x6c, 0x6c, 0x6f, 0x2c, 0x20, 0x77, 0x6f, 0x72, 0x6c, 0x64, 0x21])
    (outIs 16 [0x5f, 0x2d, 0x34, 0xa0, 0x3f, 0x1c, 0x8f, 0x64, 0xd9, 0x91, 0xba, 0xba, 0x03, 0x30, 0xce, 0xdc]) = true := by decide +kernel

/-- Y4. -/
theorem test_ecb_decrypt : after .ecbDecrypt (keyed [0x5f, 0x2d, 0x34, 0xa0, 0x3f, 0x1c, 0x8f, 0x64, 0xd9, 0x91, 0xba, 0xba, 0x03, 0x30, 0xce, 0xdc])
    (outIs 13 [0x48, 0x65, 0x6c, 0x6c, 0x6f, 0x2c, 0x20, 0x77, 0x6f, 0x72, 0x6c, 0x64, 0x21, 0x03, 0x03, 0x03]) = true := by decide +kernel

/-- Y7. -/
theorem test_ecb_decrypt_raw : after .ecbDecryptRaw (keyed [0x4c, 0x4d, 0x10, 0xe1, 0xf5, 0x54, 0x2f, 0xef, 0x3e, 0x2d, 0xa3, 0x1f, 0xf4, 0xb4, 0x47, 0x1a])
    (outIs 16 [0x00, 0x0f, 0x0f, 0x0f, 0x0f, 0x0f, 0x0f, 0x0f, 0x0f, 0x0f, 0x0f, 0x0f, 0x0f, 0x0f, 0x0f, 0x0f]) = true := by decide +kernel

/-- X5, X1, X2, X4. -/
theorem test_ecb_errors : after .ecbDecrypt { ready with len := 20#32, outLen := 7#32 }
      (fun t => t.errCode == .noKey && t.outLen == 0#32) = true ∧
    after .ecbDecrypt { scheduled with len := 20#32 } (fun t => t.errCode == .badLen && t.outLen == 0#32) = true ∧
    after .ecbDecryptRaw { scheduled with len := 0x1010#32 } (fun t => t.errCode == .badLen) = true ∧
    after .ecbEncrypt { scheduled with len := 0#32 } (fun t => t.errCode == .badLen) = true := by decide +kernel

/-- N4, N5, N7, N10, N12: the unpad heuristic. -/
theorem test_unpad :
    unpadLen 16 [0x00, 0x11, 0x22, 0x33, 0x44, 0x55, 0x66, 0x77, 0x88, 0x99, 0xaa, 0xbb, 0xcc, 0x03, 0x03, 0x03] = 13 ∧
    unpadLen 16 [0x00, 0x11, 0x22, 0x33, 0x44, 0x55, 0x66, 0x77, 0x88, 0x99, 0x00, 0xaa, 0x03, 0x03, 0x03, 0x03] = 16 ∧
    unpadLen 16 [0x10, 0x10, 0x10, 0x10, 0x10, 0x10, 0x10, 0x10, 0x10, 0x10, 0x10, 0x10, 0x10, 0x10, 0x10, 0x10] = 0 ∧
    unpadLen 16 [0x0f, 0x0f, 0x0f, 0x0f, 0x0f, 0x0f, 0x0f, 0x0f, 0x0f, 0x0f, 0x0f, 0x0f, 0x0f, 0x0f, 0x0f, 0x0f] = 16 ∧
    unpadLen 16 [0x00, 0x11, 0x22, 0x33, 0x44, 0x55, 0x66, 0x77, 0x88, 0x99, 0xaa, 0xbb, 0xcc, 0xdd, 0x01, 0x01] = 16 := by
  decide +kernel

/-- R224 with a narrower window: the count is capped at 2, so a run of three 0x03 is not stripped, a run of two is. -/
theorem test_unpad_narrow_window :
    unpadLen 2 (List.replicate 13 0x00 ++ List.replicate 3 0x03) = 16 ∧
    unpadLen 2 (List.replicate 14 0x00 ++ List.replicate 2 0x02) = 14 ∧
    unpadLen 2 (List.replicate 13 0x00 ++ List.replicate 3 0x02) = 14 := by decide

/-! ## The engine, the port and reset -/

/-- Z1, Z2: STATUS after reset, and after the generation step, which is the engine's first turn. -/
theorem test_generation : statusWord State.reset = 0x00000000#32 ∧
    afterStep State.reset (fun t => statusWord t == 0x00000010#32 && sboxAt t 0x53#8 == 0xed#8) = true := by
  decide +kernel

/-- X7: an illegal word with an ECB opcode still clears OUT_LEN. -/
theorem test_illegal_word : afterStep (pending 0x00000160#32 { scheduled with len := 16#32, outLen := 5#32 })
    (fun t => t.errCode == .illegalCmd && t.outLen == 0#32 && t.done && !t.busy && t.schedValid) = true := by
  decide +kernel

/-- M1, M2. -/
theorem test_key_and_input_writes : afterStep (writing 0x020#14 0x2b7e1516#32 { scheduled with kwm := 0#4 })
      (fun t => t.key[0] == 0x2b7e1516#32 && t.kwm == 1#4 && !t.schedValid) = true ∧
    afterStep (writing 0x1000#14 0x4b657920#32 ready)
      (fun t => memBytes t inBufBase 4 == [0x4b, 0x65, 0x79, 0x20]) = true := by decide +kernel

/-- T10, T14, M4: reads. -/
theorem test_reads : afterStep (reading 0x100#14 ready) (fun t => t.resp == some ⟨0x637c777b#32, false⟩) = true ∧
    afterStep (reading 0x2FC#14 ready) (fun t => t.resp == some ⟨0x55210c7d#32, false⟩) = true ∧
    afterStep (reading 0xFFC#14 ready) (fun t => t.resp == some ⟨0#32, false⟩) = true := by decide +kernel

/-- M3: an illegal request. -/
theorem test_illegal_request : afterStep { ready with agenda := [.access ⟨false, 0x002#14, 4, 0#32⟩] }
    (fun t => t.resp == some ⟨0#32, true⟩ && t.hostFault) = true := by decide +kernel

/-- M7, M8: writes while a command is pending. -/
theorem test_busy_writes : afterStep (writing 0x014#14 7#32 { ready with busy := true })
      (fun t => t.overrun && t.opa == 0#32) = true ∧
    afterStep (writing 0x008#14 1#32 { ready with busy := true }) (fun t => t.irqEn && !t.overrun) = true := by
  decide +kernel

/-- M12, M13: a STATUS write, and the interrupt it takes back. -/
theorem test_status_write : afterStep (writing 0x004#14 0xffffffff#32 { scheduled with done := true, overrun := true })
      (fun t => statusWord t == 0x00000070#32) = true ∧
    irq { ready with done := true, irqEn := true } = true ∧
    afterStep (writing 0x004#14 0x2#32 { ready with done := true, irqEn := true }) (fun t => !irq t) = true := by
  decide +kernel

/-! ## Witnesses: states that meet the hypotheses of the statements -/

theorem generated_sbox : ready.sbox = sboxTable := by
  have h : ready.sbox.toList = sboxTable.toList := by decide +kernel
  exact Vector.toList_inj.1 h

/-- The literal tables are the generated ones. -/
theorem test_ready_tables : tablesReady ready := by
  refine ⟨rfl, fun _ => ⟨generated_sbox, ?_⟩⟩
  decide +kernel

theorem test_scheduled_tables : tablesReady scheduled ∧ scheduled.schedValid = true ∧ keyValid scheduled = true :=
  ⟨test_ready_tables, rfl, rfl⟩

/-- BlockInv holds in a state with generated tables and a key, and after reset (StepKeepsTheInvariant). -/
theorem test_invariant_witness : BlockInv { ready with kwm := 0b1111#4, busy := true } :=
  ⟨Memory.wf_reset, test_ready_tables.2, fun h => absurd h (by decide), fun _ => rfl, by decide⟩

/-- ResetEventRestoresResetValues, IllegalRequestsGetAnErrorResponse (both ways of being illegal). -/
theorem test_event_witnesses :
    ({ scheduled with agenda := [.reset] } : State).agenda = .reset :: [] ∧
    (∃ s : State, s.agenda = .access ⟨true, 0x0000#14, 3, 0#32⟩ :: []) ∧
    (0x3FFD#14).toNat % 4 ≠ 0 ∧ (3 : Nat) ≠ 4 := ⟨rfl, ⟨{ ready with agenda := [_] }, rfl⟩, by decide, by decide⟩

/-- GenerationWritesBothTables: with an empty agenda and with an engine turn. -/
theorem test_generation_witnesses : (engineTurn State.reset [] ∧ State.reset.sboxReady = false) ∧
    engineTurn { State.reset with agenda := [.engine, .reset] } [.reset] ∧ tablesReady ready :=
  ⟨⟨.inl ⟨rfl, rfl⟩, rfl⟩, .inr rfl, test_ready_tables⟩

/-- LookupCommandsReadTheTables, RoundCommandsUndoEachOther, BlockCommandsUndoEachOther. -/
theorem test_table_witnesses : tablesReady scheduled ∧ scheduled.schedValid = true ∧ (10#4).toNat ≤ 10 :=
  ⟨test_scheduled_tables.1, rfl, by decide⟩

/-- TableWindowsReadFourEntries: the first and the last word of each window, before and after generation. -/
theorem test_window_witnesses : hostReads (reading 0x100#14 ready) [] (0x100 + 4 * 0) ∧
    hostReads (reading 0x1FC#14 State.reset) [] (0x100 + 4 * 63) ∧
    hostReads (reading 0x200#14 State.reset) [] (0x200 + 4 * 0) ∧
    hostReads (reading 0x2FC#14 ready) [] (0x200 + 4 * 63) ∧ ready.busy = false ∧ State.reset.sboxReady = false ∧
    tablesReady (reading 0x100#14 ready) := by
  refine ⟨⟨_, rfl, ?_⟩, ⟨_, rfl, ?_⟩, ⟨_, rfl, ?_⟩, ⟨_, rfl, ?_⟩, rfl, rfl, test_ready_tables⟩ <;> decide

/-- GinvIsTheUniqueInverse, FieldLawsHold: a byte that is not 0, and its inverse (F11). -/
theorem test_inverse_witness : (0x53#8 : Byte) ≠ 0x00#8 ∧ gmul 0x53#8 0xca#8 = 0x01#8 := by decide

/-- WordFieldCommandsWriteRes: operands for each clause, and swapped operands. -/
theorem test_word_operand_witnesses : ∃ s t : State,
    s.opa = 0x02#8 ++ 0x01#8 ++ 0x01#8 ++ 0x03#8 ∧ s.opb = 0xdb#8 ++ 0x13#8 ++ 0x53#8 ++ 0x45#8 ∧
    t.opa = s.opb ∧ t.opb = s.opa ∧ ({ s with opb := 0x01000000#32 } : State).opb = 0x01000000#32 ∧
    ({ s with opb := 0x00010000#32 } : State).opb = 0x00010000#32 :=
  ⟨{ ready with opa := 0x02010103#32, opb := 0xdb135345#32 }, { ready with opa := 0xdb135345#32, opb := 0x02010103#32 },
    by decide, by decide, rfl, rfl, rfl, rfl⟩

/-- RoundConstantsDouble, ExpansionFollowsTheRecurrence, KeyExpandFillsTheSchedule, KeyValidStaysUntilReset: index
bounds, with and without a key. -/
theorem test_key_witnesses : keyValid scheduled = true ∧ keyValid ready = false ∧ (0 < 4 ∧ 3 < 4) ∧
    (4 ≤ 4 ∧ 43 < 44 ∧ 4 ≤ 43) ∧ (1 ≤ 1 ∧ 2 ≤ 2) ∧
    Instr.ecbDecryptRaw ∈ ([.keyExpand, .ecbEncrypt, .ecbDecrypt, .ecbDecryptRaw] : List Instr) := by decide +kernel

/-- AddRoundKeyAddsTheSlice, BlockCommandsNeedASchedule, BlockCommandsAreTheirRounds: the boundary rounds, with and
without a schedule. -/
theorem test_round_witnesses : (0#4).toNat ≤ 10 ∧ (10#4).toNat ≤ 10 ∧ 10 < (11#4).toNat ∧ 10 < (15#4).toNat ∧
    scheduled.schedValid = true ∧ ready.schedValid = false := by decide +kernel

/-- EcbEncryptWritesPaddedBlocks, EcbDecryptsWriteRawBlocks, EcbCommandsCheckKeyThenLength: the boundary lengths. -/
theorem test_length_witnesses : keyValid (keyed [0x00]) = true ∧ (keyed [0x00]).len.toNat = 1 ∧
    (∃ s : State, keyValid s = true ∧ s.len.toNat = 4096 ∧ s.len.toNat % 16 = 0) ∧
    (∃ s : State, keyValid s = true ∧ s.len.toNat = 16 ∧ s.len.toNat % 16 = 0) ∧
    (∃ s : State, keyValid s = true ∧ s.len = 0#32) ∧ (∃ s : State, keyValid s = true ∧ 4096 < s.len.toNat) ∧
    (∃ s : State, keyValid s = true ∧ s.len.toNat % 16 ≠ 0) ∧ keyValid ready = false := by
  refine ⟨by decide +kernel, by decide +kernel, ⟨{ scheduled with len := 4096#32 }, ?_⟩,
    ⟨{ scheduled with len := 16#32 }, ?_⟩, ⟨{ scheduled with len := 0#32 }, ?_⟩, ⟨{ scheduled with len := 4097#32 }, ?_⟩,
    ⟨{ scheduled with len := 1#32 }, ?_⟩, by decide +kernel⟩ <;> decide +kernel

/-- UnpadStripsARunOfItsOwnLength: windows 1 and 16, a run of one and a run of the whole buffer, and every clause of the
second part. -/
theorem test_unpad_witnesses :
    (∃ x : List Byte, 16 ≤ x.length ∧ x[x.length - 1]? = some 0x01#8 ∧ (∀ j : Nat, j < 1 → x[x.length - 1 - j]? =
      some 0x01#8) ∧ x[x.length - 1 - 1]? ≠ some 0x01#8) ∧
    (∃ x : List Byte, 16 ≤ x.length ∧ ∀ j : Nat, j < x.length → x[x.length - 1 - j]? = some 0x10#8) ∧
    (∃ x : List Byte, 16 ≤ x.length ∧ x[x.length - 1]? = some 0x00#8) ∧
    (∃ x : List Byte, 16 ≤ x.length ∧ x[x.length - 1]? = some 0x11#8 ∧ 16 < (0x11#8).toNat) ∧
    (∃ x : List Byte, 16 ≤ x.length ∧ x[x.length - 1]? = some 0x03#8 ∧ x[x.length - 2]? = some 0x03#8 ∧
      x[x.length - 3]? = some 0x03#8 ∧ x[x.length - 4]? = some 0x03#8) :=
  ⟨⟨List.replicate 15 0x00#8 ++ [0x01#8], by decide⟩, ⟨List.replicate 16 0x10#8, by decide⟩,
    ⟨List.replicate 16 0x00#8, by decide⟩, ⟨List.replicate 16 0x11#8, by decide⟩,
    ⟨List.replicate 16 0x03#8, by decide⟩⟩

/-- A machine whose implementation has the given look-back window. -/
def withWindow (w : Config.UnpadWindow) (s : State) : State := { s with unpadWindow := w }

/-- A state with the key of `s` whose input is what ECB_ENCRYPT wrote in `t`. -/
def decrypting (s t : State) : State :=
  { storeBytes inBufBase (memBytes t outBufBase t.outLen.toNat) s with len := t.outLen }

/-- The hypotheses of EcbRoundTripGivesThePaddedPlaintext are met by every state that can encrypt. -/
theorem round_trip_hypotheses (s : State) (hs : tablesReady s) (hk : keyValid s = true) : ∃ t s2 : State,
    exec .ecbEncrypt s = .next t ∧ tablesReady s2 ∧ keyValid s2 = true ∧ s2.key = s.key ∧ s2.len = t.outLen ∧
    memBytes s2 inBufBase s2.len.toNat = memBytes t outBufBase t.outLen.toNat := by
  obtain ⟨t, ht, -⟩ := exec_completes .ecbEncrypt s
  refine ⟨t, decrypting s t, ht, hs, hk, rfl, rfl, ?_⟩
  have h := memBytes_storeBytes inBufBase (memBytes t outBufBase t.outLen.toNat) s
  rw [memBytes_length] at h
  exact h

/-- EcbRoundTripGivesThePaddedPlaintext: a partial block that ends in no pad value, one that ends in its own pad value
(Y9), and a whole block. -/
theorem test_round_trip_witnesses :
    (tablesReady (keyed [0x00]) ∧ (keyed [0x00]).len.toNat % 16 ≠ 0 ∧ memBytes (keyed [0x00]) inBufBase 1 = [0x00]) ∧
    (tablesReady (keyed (List.replicate 13 0x03)) ∧ (keyed (List.replicate 13 0x03)).len.toNat % 16 ≠ 0 ∧
      (memBytes (keyed (List.replicate 13 0x03)) inBufBase 13).getLast? = some 0x03) ∧
    (tablesReady (keyed (List.replicate 16 0x00)) ∧ (keyed (List.replicate 16 0x00)).len.toNat % 16 = 0) :=
  ⟨⟨test_ready_tables, by decide +kernel⟩, ⟨test_ready_tables, by decide +kernel⟩,
    ⟨test_ready_tables, by decide +kernel⟩⟩

/-- EcbRoundTripGivesThePaddedPlaintext, EcbDecryptsWriteRawBlocks, UnpadWindowIsFixed: the windows 1, 15 and 16, each in
a state that meets the other hypotheses too, with a pad value of 15. -/
theorem test_window_parameter_witnesses :
    (withWindow ⟨1, by decide⟩ (keyed [0x00])).unpadWindow.val = 1 ∧
    tablesReady (withWindow ⟨1, by decide⟩ (keyed [0x00])) ∧
    (withWindow ⟨15, by decide⟩ (keyed [0x00])).unpadWindow.val = 15 ∧
    tablesReady (withWindow ⟨15, by decide⟩ (keyed [0x00])) ∧ (keyed [0x00]).unpadWindow.val = 16 ∧
    ∃ t, step (withWindow ⟨15, by decide⟩ ready) = .next t :=
  ⟨rfl, test_ready_tables, rfl, test_ready_tables, rfl, (step_moves _).imp fun _ h => h.1⟩

/-- EcbCommandsReadOnlyTheirInput: two states that differ at the first byte beyond LEN and in a register. -/
theorem test_isolation_witness : family .ecbEncrypt = 6 ∧
    ∃ s s' : State, s'.key = s.key ∧ s'.kwm = s.kwm ∧ s'.len = s.len ∧ s'.unpadWindow = s.unpadWindow ∧
      s.len.toNat = 1 ∧
      (∀ x : Byte, sboxAt s' x = sboxAt s x ∧ invSboxAt s' x = invSboxAt s x) ∧
      (∀ j : Nat, j < s.len.toNat → memByte s' (inBufBase + j) = memByte s (inBufBase + j)) ∧
      s' ≠ s ∧ (∃ t, exec .ecbEncrypt s = .next t) ∧ ∃ t', exec .ecbEncrypt s' = .next t' := by
  refine ⟨rfl, keyed [0x00], { keyed [0x00, 0xff] with len := 1#32 }, rfl, rfl, by decide +kernel, rfl, by decide +kernel,
    fun x => ⟨rfl, rfl⟩, ?_, ?_, (exec_completes _ _).imp fun _ h => h.1, (exec_completes _ _).imp fun _ h => h.1⟩
  · intro j hj
    have h : j = 0 := by
      have : (keyed [0x00]).len.toNat = 1 := by decide +kernel
      omega
    subst h
    rfl
  · intro h
    have h1 := congrArg (fun s : State => s.mem.length) h
    exact absurd h1 (by decide +kernel)

/-- DecodeOfEncodeIsTheCommand, ValidWordsAreExactlyTheEncodings. -/
theorem test_encoding_witnesses : (Instr.addRoundKey 10).wf = true ∧ Instr.ecbDecryptRaw.wf = true ∧
    decode 0x00000a43#32 = .ok (.addRoundKey 10) ∧ validCommand (pending 0x00000b43#32 ready).cmd = false ∧
    engineTurn (pending 0x00000b43#32 ready) [] := ⟨rfl, rfl, by decide, by decide +kernel, .inr rfl⟩

/-- StepRunsTheDecodedCommand, EngineWaitsForACommand, PlacedWordRunsNext, ErrorsChangeNothingElse. -/
theorem test_engine_witnesses : engineTurn (pending 0x00000010#32 ready) [] ∧
    (pending 0x00000010#32 ready).sboxReady = true ∧ (pending 0x00000010#32 ready).busy = true ∧
    decode (pending 0x00000010#32 ready).cmd = .ok .gfAdd ∧ (engineTurn ready [] ∧ ready.busy = false) ∧
    (0x00000a43 < 2 ^ 32 ∧ decode (BitVec.ofNat 32 0x00000a43) = .ok (.addRoundKey 10)) ∧
    ∃ t, exec .encryptBlock ready = .next t ∧ t.errCode ≠ .ok :=
  ⟨.inr rfl, rfl, rfl, rfl, ⟨.inl ⟨rfl, rfl⟩, rfl⟩, ⟨by decide, by decide⟩, _, rfl, by decide⟩

/-- CommandsKeepTheirOperands, CommandsWriteOnlyTheirTargets: a next state exists for every command. -/
theorem test_frame_witness : ∃ t, exec .ecbEncrypt (keyed [0x00]) = .next t :=
  (exec_completes _ _).imp fun _ h => h.1

/-- The statements about writes: each offset clause at its boundaries, idle and busy. -/
theorem test_write_witnesses : ∀ a ∈ ([0x000, 0x004, 0x008, 0x00C, 0x010, 0x014, 0x018, 0x01C, 0x020, 0x02C, 0x030,
    0x03C, 0x040, 0xFFC, 0x1000, 0x1FFC, 0x2000, 0x3FFC] : List Nat),
    hostWrites (writing (BitVec.ofNat 14 a) 5#32 ready) [] a 5#32 ∧
      hostWrites (writing (BitVec.ofNat 14 a) 5#32 { ready with busy := true }) [] a 5#32 := by
  intro a ha
  refine ⟨⟨_, rfl, rfl, rfl, ?_⟩, ⟨_, rfl, rfl, rfl, ?_⟩⟩ <;> revert a <;> decide

/-- The statements about reads: each offset clause at its boundaries, idle and busy. -/
theorem test_read_witnesses : ∀ a ∈ ([0x000, 0x004, 0x008, 0x00C, 0x010, 0x014, 0x018, 0x01C, 0x020, 0x02C, 0x030,
    0x03C, 0x040, 0x0EC, 0x0F0, 0x0FC, 0x300, 0xFFC, 0x1000, 0x2FFC, 0x3000, 0x3FFC] : List Nat),
    hostReads (reading (BitVec.ofNat 14 a) ready) [] a ∧
      hostReads (reading (BitVec.ofNat 14 a) { ready with busy := true }) [] a := by
  intro a ha
  refine ⟨⟨_, rfl, rfl, rfl, ?_⟩, ⟨_, rfl, rfl, rfl, ?_⟩⟩ <;> revert a <;> decide

/-- The statements about a step that is no reset, or a reset, or one that leaves a recorded host fault: a next state
exists for every state. -/
theorem test_step_witnesses : (∃ t, step (pending 0x00000010#32 ready) = .next t) ∧
    (pending 0x00000010#32 ready).agenda.head? ≠ some .reset ∧
    ({ ready with agenda := [.reset], busy := true } : State).agenda.head? = some .reset ∧
    ({ ready with overrun := true } : State).overrun = true ∧ ({ ready with hostFault := true } : State).hostFault = true :=
  ⟨(step_moves _).imp fun _ h => h.1, by decide +kernel, rfl, rfl, rfl⟩

end Sys2Proof.Tests
end

section
/-! SUPPORT. The bridge from the statements' words for a move (hostWrites, hostReads, engineTurn) to the laws of the host
port and of the step, and what each agent leaves of the flags of 10_state.md. -/

namespace Sys2Proof.Machine

/-- A write is accepted when BUSY = 0 or its target is not one that BUSY drops (20_memory.md R65). -/
theorem hostWrite_accepted {τ : Target} {s : State} (h : s.busy = false ∨ droppedWhileBusy τ = false) (v : Word) :
    hostWrite τ v s = writeTarget v s τ := by
  rcases h with h | h <;> simp [hostWrite, h]

end Sys2Proof.Machine

namespace Sys2Proof.Claims

open Sys2Proof.Machine

/-! ## The targets of an aligned offset, in both directions -/

theorem targetOf_cmd (a : BitVec 14) (h : a.toNat = 0x000) : targetOf a = .cmd := (targetOf_register a).1 h

theorem targetOf_status (a : BitVec 14) (h : a.toNat = 0x004) : targetOf a = .status := (targetOf_register a).2.1 h

theorem targetOf_ctrl (a : BitVec 14) (h : a.toNat = 0x008) : targetOf a = .ctrl := (targetOf_register a).2.2.1 h

theorem targetOf_eq_cmd_iff {a : BitVec 14} (ha : a.toNat % 4 = 0) : targetOf a = .cmd ↔ a.toNat = 0x000 :=
  ⟨fun h => by simpa [h] using targetOf_cases a ha, targetOf_cmd a⟩

theorem targetOf_eq_status_iff {a : BitVec 14} (ha : a.toNat % 4 = 0) : targetOf a = .status ↔ a.toNat = 0x004 :=
  ⟨fun h => by simpa [h] using targetOf_cases a ha, targetOf_status a⟩

theorem targetOf_eq_key_iff {a : BitVec 14} (ha : a.toNat % 4 = 0) (k : Fin 4) :
    targetOf a = .key k ↔ a.toNat = 0x020 + 4 * k.val :=
  ⟨fun h => by simpa [h] using targetOf_cases a ha, targetOf_key a k⟩

/-- The offsets of the writes that BUSY drops (20_memory.md R69). -/
theorem droppedWhileBusy_targetOf_iff {a : BitVec 14} (ha : a.toNat % 4 = 0) :
    droppedWhileBusy (targetOf a) = true ↔ a.toNat = 0x000 ∨ a.toNat = 0x00C ∨ a.toNat = 0x014 ∨ a.toNat = 0x018 ∨
      (0x020 ≤ a.toNat ∧ a.toNat < 0x040) ∨ (0x1000 ≤ a.toNat ∧ a.toNat < 0x2000) := by
  rcases targetOf_cases a ha with ⟨h, ht⟩ | ⟨h, ht⟩ | ⟨h, ht⟩ | ⟨h, ht⟩ | ⟨h, ht⟩ | ⟨h, ht⟩ | ⟨h, ht⟩ | ⟨h, ht⟩ |
    ⟨k, h, ht⟩ | ⟨k, h, ht⟩ | ⟨k, h, ht⟩ | ⟨k, h, ht⟩ | ⟨k, h, ht⟩ | ⟨k, h, ht⟩ | ⟨k, h, ht⟩ | ⟨h, ht⟩ <;>
  · simp only [ht, droppedWhileBusy, true_iff, false_iff, reduceCtorEq]
    omega

/-! ## The statements' moves -/

/-- The engine's turn, in the statements' words and in those of the step law. -/
theorem engineTurn_iff (s : State) (rest : List Event) : engineTurn s rest ↔ EngineMoves s.agenda rest := by
  constructor
  · rintro (⟨h, rfl⟩ | h) <;> rw [h]
    · exact .last
    · exact .turn rest
  · generalize hl : s.agenda = l
    rintro (_ | _)
    · exact .inl ⟨hl, rfl⟩
    · exact .inr hl

theorem hostWrites_iff (s : State) (rest : List Event) (a : Nat) (v : Word) :
    hostWrites s rest a v ↔ ∃ r : Request, s.agenda = .access r :: rest ∧ legalRequest r = true ∧ r.we = true ∧
      r.addr.toNat = a ∧ r.wdata = v := by
  simp only [hostWrites, legalRequest_iff]
  grind

theorem hostReads_iff (s : State) (rest : List Event) (a : Nat) :
    hostReads s rest a ↔ ∃ r : Request, s.agenda = .access r :: rest ∧ legalRequest r = true ∧ r.we = false ∧
      r.addr.toNat = a := by
  simp only [hostReads, legalRequest_iff]
  grind

theorem returned_eq (s : State) (rest : List Event) (v : Word) :
    returned s rest v = respond v { s with agenda := rest } := rfl

/-- Which writes the statements see in an agenda that begins with an access. -/
theorem hostWrites_access_iff {s : State} {r : Request} {rest : List Event} (h : s.agenda = .access r :: rest)
    (rest' : List Event) (a : Nat) (v : Word) : hostWrites s rest' a v ↔
      rest' = rest ∧ legalRequest r = true ∧ r.we = true ∧ r.addr.toNat = a ∧ r.wdata = v := by
  rw [hostWrites_iff, h]
  grind

theorem not_hostWrites_of_engineMoves {s : State} {rest : List Event} (h : EngineMoves s.agenda rest)
    (rest' : List Event) (a : Nat) (v : Word) : ¬ hostWrites s rest' a v := by
  rintro ⟨r, hr, -⟩
  rw [hr] at h
  cases h

theorem not_engineTurn_of_access {s : State} {r : Request} {rest : List Event} (h : s.agenda = .access r :: rest)
    (rest' : List Event) : ¬ engineTurn s rest' := by
  simp [engineTurn, h]

theorem head?_ne_reset_of_engineMoves {s : State} {rest : List Event} (h : EngineMoves s.agenda rest) :
    s.agenda.head? ≠ some .reset := by
  generalize s.agenda = l at h
  cases h <;> simp

/-- The step of a legal write to target `τ`. -/
theorem step_of_hostWrites {s : State} {rest : List Event} {a : Nat} {v : Word} (h : hostWrites s rest a v) {τ : Target}
    (hτ : ∀ x : BitVec 14, x.toNat = a → targetOf x = τ) :
    step s = .next (respondDraw (hostWrite τ v { s with agenda := rest })) := by
  obtain ⟨r, hr, hl, hw, ha, rfl⟩ := (hostWrites_iff ..).1 h
  simp [step, agentStep, hr, hostAccess, hl, hw, hτ _ ha]

/-- The step of a write that is accepted. -/
theorem step_of_acceptedWrite {s : State} {rest : List Event} {a : Nat} {v : Word} (h : hostWrites s rest a v)
    {τ : Target} (hτ : ∀ x : BitVec 14, x.toNat = a → targetOf x = τ)
    (ha : s.busy = false ∨ droppedWhileBusy τ = false) :
    step s = .next (respondDraw (writeTarget v { s with agenda := rest } τ)) := by
  rw [step_of_hostWrites h hτ, hostWrite_accepted (s := { s with agenda := rest }) ha]

/-- The step of a legal read of target `τ` that is not answered with a draw. -/
theorem step_of_hostReads {s : State} {rest : List Event} {a : Nat} (h : hostReads s rest a) {τ : Target}
    (hτ : ∀ x : BitVec 14, x.toNat = a → targetOf x = τ) (hd : readIsDraw s τ = false) :
    step s = .next (returned s rest (readTarget s τ)) := by
  obtain ⟨r, hr, hl, hw, ha⟩ := (hostReads_iff ..).1 h
  have hd' : readIsDraw { s with agenda := rest } τ = false := hd
  have ht : readTarget { s with agenda := rest } τ = readTarget s τ := by cases τ <;> rfl
  simp [step, agentStep, hr, hostAccess, hl, hw, hτ _ ha, hd', ht, returned_eq]

theorem step_of_reset {s : State} {rest : List Event} (h : s.agenda = .reset :: rest) :
    step s = .next (resetEvent { s with agenda := rest }) := by
  simp only [step, agentStep, h]

end Sys2Proof.Claims

namespace Sys2Proof.Machine

/-! ## What an accepted write leaves of the flags -/

@[simp] theorem writeTarget_cmd (v : Word) (s : State) (τ : Target) :
    (writeTarget v s τ).cmd = if τ = .cmd then v else s.cmd := by cases τ <;> simp [writeTarget]

@[simp] theorem writeTarget_busy (v : Word) (s : State) (τ : Target) :
    (writeTarget v s τ).busy = (s.busy || decide (τ = .cmd)) := by cases τ <;> simp [writeTarget]

@[simp] theorem writeTarget_overrun (v : Word) (s : State) (τ : Target) :
    (writeTarget v s τ).overrun = (s.overrun && !(decide (τ = .status) && v.getLsbD 3)) := by
  cases τ <;> simp [writeTarget]

theorem kwmBit_writeKey (k j : Fin 4) (v : Word) (s : State) :
    (writeKey k v s).kwm.getLsbD j.val = (s.kwm.getLsbD j.val || decide (j = k)) := by
  have hbit : (1#4 <<< k.val).getLsbD j.val = decide (j = k) := by decide +revert
  rw [writeKey_kwm, BitVec.getLsbD_or, hbit]

@[simp] theorem kwmBit_writeTarget (v : Word) (s : State) (τ : Target) (k : Fin 4) :
    (writeTarget v s τ).kwm.getLsbD k.val = (s.kwm.getLsbD k.val || decide (τ = .key k)) := by
  cases τ with
  | key j => simp only [writeTarget, kwmBit_writeKey, Target.key.injEq, eq_comm]
  | _ => simp [writeTarget]

@[simp] theorem writeTarget_sboxReady (v : Word) (s : State) (τ : Target) :
    (writeTarget v s τ).sboxReady = s.sboxReady := by cases τ <;> simp [writeTarget]

@[simp] theorem writeTarget_sbox (v : Word) (s : State) (τ : Target) :
    (writeTarget v s τ).sbox = s.sbox := by cases τ <;> simp [writeTarget]

@[simp] theorem writeTarget_invSbox (v : Word) (s : State) (τ : Target) :
    (writeTarget v s τ).invSbox = s.invSbox := by cases τ <;> simp [writeTarget]

/-! ## What an access leaves of the flags -/

section Access

variable {r : Request} {s t : State} (h : Served r s t)
include h

/-- An access sets BUSY only as an accepted write to CMD, and never clears it (30_encoding.md R98). -/
theorem Served.busy_iff : t.busy = true ↔
    s.busy = true ∨ (legalRequest r = true ∧ r.we = true ∧ targetOf r.addr = .cmd) := by
  cases h with
  | refused hl => simp [hl]
  | dropped hl hw hb hd => simp [hb]
  | written hl hw hd => simp [hl, hw]
  | drawn hl hw hd => simp [hw]
  | read hl hw hd => simp [hw]

/-- While a command is pending its word stays (10_state.md R30). -/
theorem Served.cmd_of_busy (hb : s.busy = true) : t.cmd = s.cmd := by
  cases h with
  | written hl hw hd =>
    have hne : targetOf r.addr ≠ .cmd := fun hc => by simpa [hc, droppedWhileBusy] using hd hb
    simp [hne]
  | _ => simp

/-- The access that issues leaves its word in CMD (10_state.md R30). -/
theorem Served.cmd_of_issued (hb : s.busy = false) (hb' : t.busy = true) : t.cmd = r.wdata := by
  cases h with
  | written hl hw hd =>
    have hc : targetOf r.addr = .cmd := by simpa [hb] using hb'
    simp [hc]
  | dropped hl hw hbusy hd => simp [hb] at hbusy
  | _ => simp [hb] at hb'

/-- An access sets OVERRUN as a dropped write and clears it as a write to STATUS (10_state.md R35, R40). -/
theorem Served.overrun_iff : t.overrun = true ↔
    (s.busy = true ∧ legalRequest r = true ∧ r.we = true ∧ droppedWhileBusy (targetOf r.addr) = true) ∨
    (s.overrun = true ∧
      ¬ (legalRequest r = true ∧ r.we = true ∧ targetOf r.addr = .status ∧ r.wdata.getLsbD 3 = true)) := by
  cases h with
  | refused hl => simp [hl]
  | dropped hl hw hb hd => simp [hl, hw, hb, hd]
  | written hl hw hd =>
    have hnd : ¬ (s.busy = true ∧ droppedWhileBusy (targetOf r.addr) = true) := fun ⟨hb, hd'⟩ => by simp [hd hb] at hd'
    simp only [respondDraw_overrun, writeTarget_overrun, hl, hw, true_and]
    grind
  | drawn hl hw hd => simp [hw]
  | read hl hw hd => simp [hw]

/-- An access sets a bit of KWM only as an accepted write to its KEY word, and never clears one (10_state.md R25). -/
theorem Served.kwmBit_iff (k : Fin 4) : t.kwm.getLsbD k.val = true ↔
    s.kwm.getLsbD k.val = true ∨
      (s.busy = false ∧ legalRequest r = true ∧ r.we = true ∧ targetOf r.addr = .key k) := by
  cases h with
  | refused hl => simp [hl]
  | dropped hl hw hb hd => simp [hb]
  | written hl hw hd =>
    have hidle : targetOf r.addr = .key k → s.busy = false := fun hk => by simpa [hk, droppedWhileBusy] using hd
    simp only [respondDraw_kwm, kwmBit_writeTarget, Bool.or_eq_true, decide_eq_true_eq]
    grind
  | drawn hl hw hd => simp [hw]
  | read hl hw hd => simp [hw]

/-- No access changes the tables or SBOX_READY (10_state.md R36, R42). -/
theorem Served.tables_kept : t.sboxReady = s.sboxReady ∧ t.sbox = s.sbox ∧ t.invSbox = s.invSbox := by
  cases h <;> simp

end Access

/-! ## What the engine leaves of the flags -/

/-- What a turn of the engine leaves of the flags, whichever of its moves it was. -/
structure EngineLeaves (s t : State) : Prop where
  cmd : t.cmd = s.cmd
  overrun : t.overrun = s.overrun
  kwm : t.kwm = s.kwm
  ready : t.sboxReady = true
  tables : s.sboxReady = true → t.sbox = s.sbox ∧ t.invSbox = s.invSbox
  idle : s.busy = false → t.busy = false
  completed : s.busy = true → t.busy = false → s.sboxReady = true ∧ t.done = true

/-- What the completion of a command leaves of the flags, of CMD and of the tables (60_exceptions.md R251, R252). -/
structure CommandLeaves (s t : State) : Prop where
  busy : t.busy = false
  done : t.done = true
  cmd : t.cmd = s.cmd
  overrun : t.overrun = s.overrun
  kwm : t.kwm = s.kwm
  ready : t.sboxReady = s.sboxReady
  sbox : t.sbox = s.sbox
  invSbox : t.invSbox = s.invSbox

theorem Completion.leaves {i : Instr} {s t : State} (h : Completion i s t) : CommandLeaves s t := by
  cases h <;> constructor <;> simp [ecbResult, expandIntoSched]

/-- Whose move a step was: the engine's, the host's or the reset input's. -/
theorem step_agent {s t : State} (h : step s = .next t) :
    (∃ rest, EngineMoves s.agenda rest ∧ EngineLeaves s t) ∨
    (∃ r rest, s.agenda = .access r :: rest ∧ Served r { s with agenda := rest } t) ∨
    ∃ rest, s.agenda = .reset :: rest ∧ t = resetEvent { s with agenda := rest } := by
  cases step_move h with
  | generates rest he hr => exact .inl ⟨rest, he, by constructor <;> simp [hr]⟩
  | waits rest he hr hb => exact .inl ⟨rest, he, by constructor <;> simp [hr, hb]⟩
  | runs rest i t he hr hb hd hx =>
    have hc := (exec_completion hx).leaves
    exact .inl ⟨rest, he, hc.cmd, hc.overrun, hc.kwm, hc.ready.trans hr, fun _ => ⟨hc.sbox, hc.invSbox⟩,
      fun _ => hc.busy, fun _ _ => ⟨hr, hc.done⟩⟩
  | refuses rest why he hr hb hd => exact .inl ⟨rest, he, by constructor <;> simp [hr]⟩
  | host r rest ha => exact .inr (.inl ⟨r, rest, ha, hostAccess_served r _⟩)
  | resets rest ha => exact .inr (.inr ⟨rest, ha, rfl⟩)

/-! ## KEY_VALID -/

/-- KEY_VALID bit by bit (10_state.md R37). -/
theorem keyValid_iff (s : State) : keyValid s = true ↔ ∀ k : Fin 4, s.kwm.getLsbD k.val = true := by
  unfold keyValid
  generalize s.kwm = m
  decide +revert

/-- Without KEY_VALID a command that needs the key fails with NO_KEY (60_exceptions.md R254). -/
theorem exec_noKey {i : Instr} {s : State} (hi : i ∈ [.keyExpand, .ecbEncrypt, .ecbDecrypt, .ecbDecryptRaw])
    (hk : keyValid s = false) : exec i s = .next (failed (opcodeOf i) .noKey s) := by
  simp only [List.mem_cons, List.not_mem_nil, or_false] at hi
  rcases hi with rfl | rfl | rfl | rfl
  · simp [exec, execKeyExpand, hk, raiseError, opcodeOf]
  · simp [exec, execEcbEncrypt, hk, raiseError, opcodeOf]
  · simp [exec, execEcbDecrypt, hk, raiseError, opcodeOf]
  · simp [exec, execEcbDecryptRaw, hk, raiseError, opcodeOf]

end Sys2Proof.Machine
end

section
/-! PROOF. The statements about the flags and the control registers of 10_state.md. -/

namespace Sys2Proof.Claims

open Sys2Proof.Machine

/-- Settles O43: each bit of KWM is followed through the three kinds of step. -/
theorem keyValidStaysUntilReset : Obligations.KeyValidStaysUntilReset := by
  refine ⟨fun s => ?_, fun s t h hnr k => ?_, fun s t rest h ha => ?_, fun i s hi hk => ?_⟩
  · simp [keyValid_iff, Fin.forall_fin_succ]
  · rcases step_agent h with ⟨rest, he, hl⟩ | ⟨r, rest, ha, hs⟩ | ⟨rest, ha, rfl⟩
    · simp [hl.kwm, not_hostWrites_of_engineMoves he]
    · simp only [hs.kwmBit_iff, hostWrites_access_iff ha, exists_and_left, exists_eq_left, exists_eq', and_true]
      by_cases hl : legalRequest r = true
      · simp only [targetOf_eq_key_iff ((legalRequest_iff r).1 hl).2]
      · simp [hl]
    · simp [ha] at hnr
  · cases (step_of_reset ha).symm.trans h
    rfl
  · exact ⟨_, exec_noKey hi hk, rfl⟩

/-- Settles O55: an accepted CMD write is the one access that sets BUSY, and a completion the one turn of the engine
that clears it. -/
theorem busyIsSetByIssueAndClearedByCompletion : Obligations.BusyIsSetByIssueAndClearedByCompletion := by
  refine ⟨fun s rest c hb hw => ?_, fun i s t h => (exec_completion h).leaves.busy, fun s t h => ?_⟩
  · exact ⟨_, step_of_acceptedWrite hw targetOf_cmd (.inl hb), by simp⟩
  · rcases step_agent h with ⟨rest, he, hl⟩ | ⟨r, rest, ha, hs⟩ | ⟨rest, ha, rfl⟩
    · refine ⟨fun hb hb' => ?_, fun _ _ => hl.cmd, fun hb hb' => .inr ?_, fun hr => ?_⟩
      · simp [hl.idle hb] at hb'
      · obtain ⟨hready, hdone⟩ := hl.completed hb hb'
        exact ⟨hready, hdone, rest, (engineTurn_iff s rest).2 he⟩
      · exact absurd hr (head?_ne_reset_of_engineMoves he)
    · refine ⟨fun hb hb' => ?_, fun hb _ => hs.cmd_of_busy hb, fun hb hb' => ?_, fun hr => ?_⟩
      · obtain ⟨hl, hw, hc⟩ := (hs.busy_iff.1 hb').resolve_left (by simp [hb])
        have ha0 := (targetOf_eq_cmd_iff ((legalRequest_iff r).1 hl).2).1 hc
        exact ⟨rest, r.wdata, (hostWrites_access_iff ha ..).2 ⟨rfl, hl, hw, ha0, rfl⟩, hs.cmd_of_issued hb hb'⟩
      · simp [hs.busy_iff.2 (.inl hb)] at hb'
      · simp [ha] at hr
    · simp [ha, State.reset]

/-- Settles O56: every turn of the engine leaves SBOX_READY set, with ready tables as they were, and no access touches
them. -/
theorem tablesAreFixedOnceReady : Obligations.TablesAreFixedOnceReady := by
  refine ⟨rfl, fun s t h => ?_⟩
  rcases step_agent h with ⟨rest, he, hl⟩ | ⟨r, rest, ha, hs⟩ | ⟨rest, ha, rfl⟩
  · refine ⟨fun hr => absurd hr (head?_ne_reset_of_engineMoves he), fun _ => ?_, fun hr _ => hl.tables hr⟩
    exact ⟨fun _ => .inr ⟨rest, (engineTurn_iff s rest).2 he⟩, fun _ => hl.ready⟩
  · obtain ⟨hready, hsbox, hinv⟩ := hs.tables_kept
    simp [ha, hready, hsbox, hinv, not_engineTurn_of_access ha]
  · simp [ha, State.reset]

/-- Settles O57: the engine never touches OVERRUN, and an access sets it as a dropped write and clears it as a write to
STATUS. -/
theorem overrunIsStickyUntilCleared : Obligations.OverrunIsStickyUntilCleared := by
  intro s t h hnr
  rcases step_agent h with ⟨rest, he, hl⟩ | ⟨r, rest, ha, hs⟩ | ⟨rest, ha, rfl⟩
  · simp [hl.overrun, not_hostWrites_of_engineMoves he]
  · simp only [hs.overrun_iff, hostWrites_access_iff ha, and_assoc, exists_and_left, exists_eq_left, exists_eq_left']
    by_cases hl : legalRequest r = true
    · have haligned := ((legalRequest_iff r).1 hl).2
      simp only [droppedWhileBusy_targetOf_iff haligned, targetOf_eq_status_iff haligned]
    · simp [hl]
  · simp [ha] at hnr

/-- Settles O42: the accepted write is `writeKey`. -/
theorem keyWriteInvalidatesTheSchedule : Obligations.KeyWriteInvalidatesTheSchedule := by
  intro s rest k v hw hb
  refine ⟨_, step_of_acceptedWrite hw (fun x hx => targetOf_key x k hx) (.inl hb), rfl, fun j => ?_, fun j hj => ?_⟩
  · simp [writeTarget, Vector.getElem_set, Fin.ext_iff, eq_comm]
  · simpa [Fin.ext_iff, eq_comm] using kwmBit_writeTarget v { s with agenda := rest } (.key k) ⟨j, hj⟩

/-- Settles O44: a write to STATUS is never dropped. -/
theorem statusWriteClearsDoneAndOverrun : Obligations.StatusWriteClearsDoneAndOverrun := by
  intro s rest v hw
  rw [step_of_acceptedWrite hw targetOf_status (.inr rfl)]
  simp only [writeTarget, writeStatus, respondDraw, answered, Bool.if_false_left, Bool.decide_eq_true, Bool.and_comm]

/-- CTRL as a number (10_state.md R41). -/
theorem ctrlWord_eq (s : State) : ctrlWord s = if s.irqEn then 1#32 else 0#32 := by
  cases h : s.irqEn <;> simp [ctrlWord, h]

/-- Settles O46: a write to CTRL is never dropped, and a read of it is never a draw. -/
theorem ctrlHoldsTheInterruptEnable : Obligations.CtrlHoldsTheInterruptEnable := by
  refine ⟨rfl, fun s h => by simp [irq, h], fun s rest => ⟨fun v hw => ?_, fun hr => ?_⟩⟩
  · exact step_of_acceptedWrite hw targetOf_ctrl (.inr rfl)
  · rw [step_of_hostReads hr targetOf_ctrl (by simp [readIsDraw, alwaysReadable, isTableWindow]),
      readTarget, ctrlWord_eq]

end Sys2Proof.Claims
end

section
/-! SUPPORT. The rules of a host access that the statements of 20_memory.md need: writes that are dropped or ignored,
reads that are answered with a draw, requests that are refused, and the record of the host's faults. -/

namespace Sys2Proof.Machine

@[simp] theorem writeTarget_hostFault (v : Word) (s : State) (τ : Target) :
    (writeTarget v s τ).hostFault = s.hostFault := by cases τ <;> simp [writeTarget]

/-- An access adds to the record of faults exactly when it is not legal (20_memory.md R61). -/
theorem Served.hostFault_iff {r : Request} {s t : State} (h : Served r s t) :
    t.hostFault = true ↔ s.hostFault = true ∨ legalRequest r = false := by
  cases h with
  | refused hl => simp [hl]
  | dropped hl hw hb hd => simp [hl]
  | written hl hw hd => simp [hl]
  | drawn hl hw hd => simp [hl]
  | read hl hw hd => simp [hl]

theorem Completion.hostFault_kept {i : Instr} {s t : State} (h : Completion i s t) : t.hostFault = s.hostFault := by
  cases h <;> simp [ecbResult, expandIntoSched]

/-- The record of the host's faults is never taken back, the rst input included (R61; log entry 2). -/
theorem hostFault_of_step {s t : State} (h : step s = .next t) (hf : s.hostFault = true) : t.hostFault = true := by
  cases step_move h with
  | generates rest he hr => simpa using hf
  | waits rest he hr hb => exact hf
  | runs rest i t he hr hb hd hx => exact (exec_completion hx).hostFault_kept.trans hf
  | refuses rest why he hr hb hd => simpa using hf
  | host r rest ha => exact (hostAccess_served r _).hostFault_iff.2 (.inl hf)
  | resets rest ha => simpa using hf

/-- A write that is neither dropped nor one of STATUS or CTRL is ignored (R65). -/
theorem hostWrite_ignored {τ : Target} (hd : droppedWhileBusy τ = false) (hs : τ ≠ .status) (hc : τ ≠ .ctrl)
    (v : Word) (s : State) : hostWrite τ v s = s := by
  rw [hostWrite_accepted (.inr hd)]
  cases τ <;> simp_all [droppedWhileBusy, writeTarget]

/-- While BUSY = 1 a read is a draw unless its target always reads its current value (R70). -/
theorem readIsDraw_of_busy {s : State} (hb : s.busy = true) (τ : Target) :
    readIsDraw s τ = !alwaysReadable τ := by
  cases τ <;> simp [readIsDraw, alwaysReadable, isTableWindow, hb]

/-- The step of a request that is not legal. -/
theorem step_of_illegalRequest {s : State} {r : Request} {rest : List Event} (h : s.agenda = .access r :: rest)
    (hl : legalRequest r = false) : step s = .next (refuseRequest { s with agenda := rest }) := by
  simp [step, agentStep, h, hostAccess, hl]

end Sys2Proof.Machine

namespace Sys2Proof.Claims

open Sys2Proof.Machine

theorem targetOf_eq_ctrl_iff {a : BitVec 14} (ha : a.toNat % 4 = 0) : targetOf a = .ctrl ↔ a.toNat = 0x008 :=
  ⟨fun h => by simpa [h] using targetOf_cases a ha, targetOf_ctrl a⟩

/-- The offsets whose reads BUSY leaves alone (20_memory.md R70). -/
theorem alwaysReadable_targetOf_iff {a : BitVec 14} (ha : a.toNat % 4 = 0) :
    alwaysReadable (targetOf a) = true ↔ a.toNat < 0x00C := by
  rcases targetOf_cases a ha with ⟨h, ht⟩ | ⟨h, ht⟩ | ⟨h, ht⟩ | ⟨h, ht⟩ | ⟨h, ht⟩ | ⟨h, ht⟩ | ⟨h, ht⟩ | ⟨h, ht⟩ |
    ⟨k, h, ht⟩ | ⟨k, h, ht⟩ | ⟨k, h, ht⟩ | ⟨k, h, ht⟩ | ⟨k, h, ht⟩ | ⟨k, h, ht⟩ | ⟨k, h, ht⟩ | ⟨h, ht⟩ <;>
  · simp only [ht, alwaysReadable, true_iff, false_iff, reduceCtorEq]
    omega

/-- A write to a read-only or reserved offset changes nothing, whatever BUSY is (20_memory.md R65). -/
theorem hostWrite_targetOf_ignored {a : BitVec 14} (ha : a.toNat % 4 = 0)
    (h : a.toNat = 0x010 ∨ a.toNat = 0x01C ∨ (0x040 ≤ a.toNat ∧ a.toNat < 0x1000) ∨ 0x2000 ≤ a.toNat)
    (v : Word) (s : State) : hostWrite (targetOf a) v s = s := by
  apply hostWrite_ignored
  · rw [← Bool.not_eq_true, droppedWhileBusy_targetOf_iff ha]
    omega
  · rw [ne_eq, targetOf_eq_status_iff ha]
    omega
  · rw [ne_eq, targetOf_eq_ctrl_iff ha]
    omega

/-- The step of a legal write, by the request's own offset. -/
theorem step_of_hostWrites_targetOf {s : State} {rest : List Event} {a : Nat} {v : Word} (h : hostWrites s rest a v) :
    ∃ x : BitVec 14, x.toNat = a ∧ a % 4 = 0 ∧
      step s = .next (respondDraw (hostWrite (targetOf x) v { s with agenda := rest })) := by
  have ⟨r, _, _, _, hx, ha, _⟩ := h
  exact ⟨r.addr, hx, ha, step_of_hostWrites h fun y hy => by rw [BitVec.eq_of_toNat_eq (hy.trans hx.symm)]⟩

/-- The step of a write that BUSY drops (R69). -/
theorem step_of_droppedWrite {s : State} {rest : List Event} {a : Nat} {v : Word} (h : hostWrites s rest a v)
    (hb : s.busy = true) (ha : a = 0x000 ∨ a = 0x00C ∨ a = 0x014 ∨ a = 0x018 ∨ (0x020 ≤ a ∧ a < 0x040) ∨
      (0x1000 ≤ a ∧ a < 0x2000)) : step s = .next { answered s rest with overrun := true } := by
  obtain ⟨x, rfl, haligned, hstep⟩ := step_of_hostWrites_targetOf h
  rw [hstep, hostWrite, if_pos (by simp [hb, (droppedWhileBusy_targetOf_iff haligned).2 ha])]
  rfl

/-- The step of a write to a read-only or reserved offset (R65). -/
theorem step_of_ignoredWrite {s : State} {rest : List Event} {a : Nat} {v : Word} (h : hostWrites s rest a v)
    (ha : a = 0x010 ∨ a = 0x01C ∨ (0x040 ≤ a ∧ a < 0x1000) ∨ 0x2000 ≤ a) : step s = .next (answered s rest) := by
  obtain ⟨x, rfl, haligned, hstep⟩ := step_of_hostWrites_targetOf h
  rw [hstep, hostWrite_targetOf_ignored haligned ha]
  rfl

/-- The step of a legal read that is answered with a draw. -/
theorem step_of_drawnRead {s : State} {rest : List Event} {a : Nat} (h : hostReads s rest a)
    (hd : ∀ x : BitVec 14, x.toNat = a → a % 4 = 0 → readIsDraw s (targetOf x) = true) :
    step s = .next (answered s rest) := by
  obtain ⟨r, hr, hl, hw, ha⟩ := (hostReads_iff ..).1 h
  have hd' : readIsDraw { s with agenda := rest } (targetOf r.addr) = true :=
    hd r.addr ha (ha ▸ ((legalRequest_iff r).1 hl).2)
  simp [step, agentStep, hr, hostAccess, hl, hw, hd', respondDraw, answered]

end Sys2Proof.Claims
end

section
/-! PROOF. The statements about illegal requests and about accesses while BUSY = 1 (20_memory.md R61, R69, R70). -/

namespace Sys2Proof.Claims

open Sys2Proof.Machine

/-- Settles O49: the offset says whether BUSY drops the write; CTRL and STATUS take it, and the others ignore it. -/
theorem busyWritesAreDropped : Obligations.BusyWritesAreDropped := by
  intro s rest a v hw hb
  refine ⟨step_of_droppedWrite hw hb, ?_, ?_, step_of_ignoredWrite hw⟩
  · rintro rfl
    exact step_of_acceptedWrite hw targetOf_ctrl (.inr rfl)
  · rintro rfl
    exact statusWriteClearsDoneAndOverrun s rest v hw

/-- Settles O50: CMD, STATUS and CTRL lie below 0x00C, and every other offset reads a draw. -/
theorem busyReadsAreDraws : Obligations.BusyReadsAreDraws := by
  intro s rest a hr hb
  refine ⟨?_, ?_, ?_, fun ha => step_of_drawnRead hr fun x hx haligned => ?_⟩
  · rintro rfl
    exact step_of_hostReads hr targetOf_cmd (readIsDraw_of_busy hb _)
  · rintro rfl
    exact step_of_hostReads hr targetOf_status (readIsDraw_of_busy hb _)
  · rintro rfl
    exact step_of_hostReads hr targetOf_ctrl (readIsDraw_of_busy hb _)
  · subst hx
    rw [readIsDraw_of_busy hb, Bool.not_eq_true', ← Bool.not_eq_true, alwaysReadable_targetOf_iff haligned]
    omega

/-- Settles O48: the request is refused with its fault on record, no move takes the record back, and a normal end asks
for a clean one. -/
theorem illegalRequestsGetAnErrorResponse : Obligations.IllegalRequestsGetAnErrorResponse := by
  refine ⟨fun s r rest ha hr => step_of_illegalRequest ha ?_, fun s t h hf => hostFault_of_step h hf, ?_⟩
  · rw [← Bool.not_eq_true, legalRequest_iff]
    omega
  · rintro s hf ⟨-, -, -, hclean⟩
    exact absurd (hf.symm.trans hclean) (by decide)

end Sys2Proof.Claims
end

section
/-! SUPPORT. The fields of a command word and what the decoder answers, said once over the fields
(30_encoding.md R90 to R94), and the engine's turn at a word that is not valid. -/

namespace Sys2Proof

/-! ## The fields of a word -/

theorem opField_toNat (c : Word) : (opField c).toNat = c.toNat % 256 := by
  simp [opField, BitVec.extractLsb'_toNat]

theorem rndField_toNat (c : Word) : (rndField c).toNat = c.toNat / 256 % 16 := by
  simp [rndField, BitVec.extractLsb'_toNat, Nat.shiftRight_eq_div_pow]

theorem rsvField_toNat (c : Word) : (rsvField c).toNat = c.toNat / 4096 := by
  have hc := c.isLt
  simp only [rsvField, BitVec.extractLsb'_toNat, Nat.shiftRight_eq_div_pow]
  omega

/-- A word is its three fields (R90). -/
theorem fields_append (c : Word) : rsvField c ++ rndField c ++ opField c = c := by
  rw [rsvField, rndField, opField, BitVec.extractLsb'_append_extractLsb'_eq_extractLsb' (start₁ := 8) (len₁ := 4) rfl,
    BitVec.extractLsb'_append_extractLsb'_eq_extractLsb' (start₁ := 0) (len₁ := 8) rfl, BitVec.extractLsb'_eq_self]

@[simp] theorem opField_encode (i : Instr) : opField (encode i) = opcodeOf i :=
  BitVec.extractLsb'_append_eq_right

@[simp] theorem rndField_encode (i : Instr) : rndField (encode i) = roundOf i :=
  (BitVec.extractLsb'_append_eq_of_le (by decide)).trans BitVec.extractLsb'_append_eq_right

@[simp] theorem rsvField_encode (i : Instr) : rsvField (encode i) = 0#20 :=
  (BitVec.extractLsb'_append_eq_of_le (by decide)).trans BitVec.extractLsb'_append_eq_left

/-! ## The opcode map -/

/-- OP alone says whether the map has a command (R93). -/
theorem exists_instrOfOp_iff (op : Byte) (rnd : BitVec 4) : (∃ i, instrOfOp op rnd = some i) ↔
    op.toNat ∈ [0x10, 0x11, 0x12, 0x13, 0x14, 0x20, 0x21, 0x30, 0x40, 0x41, 0x42, 0x43, 0x44, 0x45, 0x46, 0x50, 0x51,
      0x60, 0x61, 0x62] := by
  rw [← Option.isSome_iff_exists]
  have hrnd : (instrOfOp op rnd).isSome = (instrOfOp op 0).isSome := by
    unfold instrOfOp
    split <;> rfl
  rw [hrnd]
  decide +revert

theorem rndLegal_iff (op : Byte) (rnd : BitVec 4) : rndLegal op rnd = true ↔
    op.toNat = 0x43 ∧ rnd.toNat ≤ 10 ∨ op.toNat ≠ 0x43 ∧ rnd.toNat = 0 := by
  unfold rndLegal
  split <;> simp_all [← BitVec.toNat_inj]

/-- The map is by opcode (R93). -/
theorem opcodeOf_of_instrOfOp {op : Byte} {rnd : BitVec 4} {i : Instr} (h : instrOfOp op rnd = some i) :
    opcodeOf i = op := by
  unfold instrOfOp at h
  split at h <;> cases h <;> rfl

/-- The command of an OP with a legal RND: its own opcode and round index are those fields (R91, R93). -/
theorem instrOfOp_legal_iff (op : Byte) (rnd : BitVec 4) (i : Instr) :
    (instrOfOp op rnd = some i ∧ rndLegal op rnd = true) ↔ i.wf = true ∧ opcodeOf i = op ∧ roundOf i = rnd := by
  constructor
  · rintro ⟨hi, hr⟩
    obtain rfl := opcodeOf_of_instrOfOp hi
    cases i with
    | addRoundKey r =>
      cases hi
      exact ⟨hr, rfl, rfl⟩
    | _ => exact ⟨rfl, rfl, (of_decide_eq_true hr).symm⟩
  · rintro ⟨hw, rfl, rfl⟩
    cases i with
    | addRoundKey r => exact ⟨rfl, hw⟩
    | _ => exact ⟨rfl, rfl⟩

/-! ## The decoder -/

/-- The decoder's three checks, as one condition on the fields (R92). -/
theorem decode_eq_ok_iff (c : Word) (i : Instr) : decode c = .ok i ↔
    instrOfOp (opField c) (rndField c) = some i ∧ rsvField c = 0#20 ∧ rndLegal (opField c) (rndField c) = true := by
  unfold decode
  cases instrOfOp (opField c) (rndField c) with
  | none => simp
  | some j =>
    by_cases hz : rsvField c = 0#20 <;> by_cases hr : rndLegal (opField c) (rndField c) = true <;> simp [hz, hr]

theorem validCommand_iff_decode (c : Word) : validCommand c = true ↔ ∃ i, decode c = .ok i := by
  unfold validCommand
  cases decode c <;> simp

/-- The decoder answers a well-formed command at its encoding and for no other word (R92, R94). -/
theorem decode_eq_ok_iff_encode (c : Word) (i : Instr) : decode c = .ok i ↔ i.wf = true ∧ encode i = c := by
  rw [decode_eq_ok_iff, and_left_comm, instrOfOp_legal_iff]
  constructor
  · rintro ⟨hz, hw, hop, hrnd⟩
    exact ⟨hw, by rw [encode, hop, hrnd, ← hz, fields_append]⟩
  · rintro ⟨hw, rfl⟩
    simp [hw]

/-- The form in which a given word of the map is decoded (R93). -/
theorem decode_of_encode {c : Word} {i : Instr} (hw : i.wf = true) (h : encode i = c) : decode c = .ok i :=
  (decode_eq_ok_iff_encode c i).2 ⟨hw, h⟩

/-- A word is valid under the three conditions of R92, as conditions on its number. -/
theorem validCommand_iff (c : Word) : validCommand c = true ↔
    c.toNat % 256 ∈ [0x10, 0x11, 0x12, 0x13, 0x14, 0x20, 0x21, 0x30, 0x40, 0x41, 0x42, 0x43, 0x44, 0x45, 0x46, 0x50,
      0x51, 0x60, 0x61, 0x62] ∧ c.toNat / 4096 = 0 ∧
    (c.toNat % 256 = 0x43 ∧ c.toNat / 256 % 16 ≤ 10 ∨ c.toNat % 256 ≠ 0x43 ∧ c.toNat / 256 % 16 = 0) := by
  simp only [validCommand_iff_decode, decode_eq_ok_iff, exists_and_right, exists_instrOfOp_iff, rndLegal_iff,
    ← BitVec.toNat_inj, opField_toNat, rndField_toNat, rsvField_toNat, BitVec.toNat_ofNat, Nat.zero_mod]

end Sys2Proof

namespace Sys2Proof.Claims

open Sys2Proof.Machine

/-- The step of an engine's turn. -/
theorem step_of_engineTurn {s : State} {rest : List Event} (h : engineTurn s rest) :
    step s = engineStep { s with agenda := rest } := by
  rcases h with ⟨ha, rfl⟩ | ha
  · simp only [step, agentStep, ha]
    rw [← ha]
  · simp only [step, agentStep, ha]

/-- The engine's turn at a pending word that is not valid (R92, R94). -/
theorem step_of_invalidCommand {s : State} {rest : List Event} (h : engineTurn s rest) (hr : s.sboxReady = true)
    (hb : s.busy = true) (hv : validCommand s.cmd = false) :
    step s = .next (failed (opField s.cmd) .illegalCmd { s with agenda := rest }) := by
  rw [step_of_engineTurn h]
  cases hd : decode s.cmd with
  | ok i => simp [(validCommand_iff_decode s.cmd).2 ⟨i, hd⟩] at hv
  | error why => simp [engineStep, commandStep, raiseError, hr, hb, hd]

end Sys2Proof.Claims
end

section
/-! PROOF. The statements about command words and about their issue (30_encoding.md R92, R93, R98). -/

namespace Sys2Proof.Claims

open Sys2Proof.Machine

/-- Settles O31: the decoder's conditions as conditions on the word's number, its inverse `encode`, and the step of a
turn at a word that is not valid. -/
theorem validWordsAreExactlyTheEncodings : Obligations.ValidWordsAreExactlyTheEncodings :=
  ⟨validCommand_iff, fun c i => (decode_eq_ok_iff_encode c i).1, fun _ _ ht hr hb hv =>
    ⟨_, step_of_invalidCommand ht hr hb hv, rfl, rfl, rfl⟩⟩

/-- Settles O32: each word of the map is the encoding of its command. -/
theorem opcodeMapWordsDecode : Obligations.OpcodeMapWordsDecode := by
  refine ⟨fun r hr => decode_of_encode (by simpa [Instr.wf] using hr) rfl, fun i => ?_, ?_⟩
  · cases i <;> simp [family, opcodeOf]
  · and_intros <;> exact decode_of_encode rfl rfl

/-- Settles O51: BUSY says whether the write is accepted or dropped, and an accepted write to CMD issues its word
without a look at it. -/
theorem commandWriteIssues : Obligations.CommandWriteIssues := fun _ _ _ hw =>
  ⟨fun hb => step_of_acceptedWrite hw targetOf_cmd (.inl hb), fun hb => step_of_droppedWrite hw hb (.inl rfl)⟩

end Sys2Proof.Claims
end

section
/-! SUPPORT. Addition and multiplication in GF(2^8) (40_galois_field.md R110, R111): the multiplication is additive in
each operand, so inductions over sums give the laws of a field (R114), and with them those of the AES words (R113). -/

namespace Sys2Proof.Machine

/-! ## Sums -/

/-- The low `n + 1` bits of a word are its low `n` bits plus bit `n`. -/
theorem setWidth_succ_eq_xor_twoPow {w : Nat} (x : BitVec w) (n : Nat) :
    (x.setWidth (n + 1)).setWidth w =
      (x.setWidth n).setWidth w ^^^ (if x.getLsbD n then BitVec.twoPow w n else 0#w) := by
  ext i hi
  rcases Nat.lt_trichotomy i n with h | rfl | h
  · cases hx : x.getLsbD n <;> simp [h, h.ne, Nat.lt_succ_of_lt h]
  · cases hx : x.getLsbD i <;> simp_all
  · cases hx : x.getLsbD n <;> simp [h.ne', Nat.not_lt_of_gt h, Nat.not_lt.2 h]

/-- What holds of 0 and of each power of two, and of sums, holds of every word. -/
theorem xor_induction {w : Nat} {P : BitVec w → Prop} (zero : P 0#w) (bit : ∀ i < w, P (BitVec.twoPow w i))
    (add : ∀ x y, P x → P y → P (x ^^^ y)) (x : BitVec w) : P x := by
  have low : ∀ n ≤ w, P ((x.setWidth n).setWidth w) := by
    intro n hn
    induction n with
    | zero => simpa [BitVec.of_length_zero] using zero
    | succ n ih =>
      rw [setWidth_succ_eq_xor_twoPow]
      refine add _ _ (ih (by omega)) ?_
      split
      · exact bit n hn
      · exact zero
  simpa using low w le_rfl

/-- Additive functions that agree on the powers of two are equal. -/
theorem eq_of_additive {w v : Nat} {f g : BitVec w → BitVec v} (hf : ∀ x y, f (x ^^^ y) = f x ^^^ f y)
    (hg : ∀ x y, g (x ^^^ y) = g x ^^^ g y) (bit : ∀ i < w, f (BitVec.twoPow w i) = g (BitVec.twoPow w i))
    (x : BitVec w) : f x = g x := by
  have hf0 : f 0#w = 0#v := by simpa using hf 0#w 0#w
  have hg0 : g 0#w = 0#v := by simpa using hg 0#w 0#w
  induction x using xor_induction with
  | zero => rw [hf0, hg0]
  | bit i hi => exact bit i hi
  | add x y hx hy => rw [hf, hg, hx, hy]

/-- A conditional addition is additive in the accumulator and in the addend. -/
theorem ite_xor_left {w : Nat} (c : Bool) (p q a b : BitVec w) :
    (if c then (p ^^^ q) ^^^ (a ^^^ b) else p ^^^ q) = (if c then p ^^^ a else p) ^^^ (if c then q ^^^ b else q) := by
  split
  · ac_rfl
  · rfl

/-- A conditional addition is additive in the accumulator and in the condition. -/
theorem ite_xor_right {w : Nat} (c d : Bool) (p q a : BitVec w) :
    (if c ^^ d then (p ^^^ q) ^^^ a else p ^^^ q) = (if c then p ^^^ a else p) ^^^ (if d then q ^^^ a else q) := by
  cases c <;> cases d
  · rfl
  · exact BitVec.xor_assoc p q a
  · change p ^^^ q ^^^ a = p ^^^ a ^^^ q
    ac_rfl
  · calc p ^^^ q = p ^^^ q ^^^ (a ^^^ a) := by rw [BitVec.xor_self, BitVec.xor_zero]
      _ = p ^^^ a ^^^ (q ^^^ a) := by ac_rfl

/-! ## Doubling and the multiplication loop -/

theorem xtime_xor (a b : Byte) : xtime (a ^^^ b) = xtime a ^^^ xtime b := by
  simp only [xtime, BitVec.getLsbD_xor, BitVec.shiftLeft_xor_distrib]
  exact ite_xor_right ..

/-- What holds of 1, of doublings and of sums holds of every byte: bit `i` is the `i`-th doubling of 1. -/
theorem byte_induction {P : Byte → Prop} (one : P 0x01#8) (double : ∀ a, P a → P (xtime a))
    (add : ∀ a b, P a → P b → P (a ^^^ b)) (a : Byte) : P a := by
  have succ : ∀ i < 7, BitVec.twoPow 8 (i + 1) = xtime (BitVec.twoPow 8 i) := by decide
  have bit : ∀ i < 8, P (BitVec.twoPow 8 i) := by
    intro i hi
    induction i with
    | zero => exact one
    | succ i ih =>
      rw [succ i (by omega)]
      exact double _ (ih (by omega))
  exact xor_induction (by simpa using add _ _ one one) bit add a

theorem gmulLoop_xor_left (n : Nat) (a a' b p p' : Byte) :
    gmulLoop n (a ^^^ a') b (p ^^^ p') = gmulLoop n a b p ^^^ gmulLoop n a' b p' := by
  induction n generalizing a a' b p p' with
  | zero => rfl
  | succ n ih => simp only [gmulLoop, xtime_xor, ite_xor_left, ih]

theorem gmulLoop_xor_right (n : Nat) (a b b' p p' : Byte) :
    gmulLoop n a (b ^^^ b') (p ^^^ p') = gmulLoop n a b p ^^^ gmulLoop n a b' p' := by
  induction n generalizing a b b' p p' with
  | zero => rfl
  | succ n ih => simp only [gmulLoop, BitVec.ushiftRight_xor_distrib, BitVec.getLsbD_xor, ite_xor_right, ih]

theorem gmulLoop_xtime (n : Nat) (a b p : Byte) :
    gmulLoop n (xtime a) b (xtime p) = xtime (gmulLoop n a b p) := by
  induction n generalizing a b p with
  | zero => rfl
  | succ n ih => simp only [gmulLoop, ← xtime_xor, ← apply_ite, ih]

/-! ## The ring -/

theorem gmul_xor_left (a a' b : Byte) : gmul (a ^^^ a') b = gmul a b ^^^ gmul a' b :=
  gmulLoop_xor_left 8 a a' b 0#8 0#8

theorem gmul_xor_right (a b b' : Byte) : gmul a (b ^^^ b') = gmul a b ^^^ gmul a b' :=
  gmulLoop_xor_right 8 a b b' 0#8 0#8

theorem gmul_xtime_left (a b : Byte) : gmul (xtime a) b = xtime (gmul a b) :=
  gmulLoop_xtime 8 a b 0#8

@[simp] theorem gmul_zero (a : Byte) : gmul a 0x00#8 = 0x00#8 := by
  simpa using gmul_xor_right a 0#8 0#8

@[simp] theorem zero_gmul (b : Byte) : gmul 0x00#8 b = 0x00#8 := by
  simpa using gmul_xor_left 0#8 0#8 b

@[simp] theorem gmul_one (a : Byte) : gmul a 0x01#8 = a := by
  simp [gmul, gmulLoop]

@[simp] theorem one_gmul (b : Byte) : gmul 0x01#8 b = b :=
  eq_of_additive (g := fun b => b) (gmul_xor_right _) (fun _ _ => rfl) (by decide) b

theorem gmul_xtime_right (a b : Byte) : gmul a (xtime b) = xtime (gmul a b) := by
  induction a using byte_induction with
  | one => rw [one_gmul, one_gmul]
  | double a ih => rw [gmul_xtime_left, gmul_xtime_left, ih]
  | add a a' ih ih' => rw [gmul_xor_left, gmul_xor_left, xtime_xor, ih, ih']

theorem gmul_comm (a b : Byte) : gmul a b = gmul b a := by
  induction a using byte_induction with
  | one => rw [one_gmul, gmul_one]
  | double a ih => rw [gmul_xtime_left, gmul_xtime_right, ih]
  | add a a' ih ih' => rw [gmul_xor_left, gmul_xor_right, ih, ih']

theorem gmul_assoc (a b c : Byte) : gmul (gmul a b) c = gmul a (gmul b c) := by
  induction a using byte_induction with
  | one => rw [one_gmul, one_gmul]
  | double a ih => simp only [gmul_xtime_left, ih]
  | add a a' ih ih' => simp only [gmul_xor_left, ih, ih']

theorem xtime_eq_gmul (a : Byte) : xtime a = gmul 0x02#8 a := by
  rw [show (0x02#8 : Byte) = xtime 0x01#8 by rfl, gmul_xtime_left, one_gmul]

/-! ## Squares and inverses -/

theorem gsquare_xor (a b : Byte) : gsquare (a ^^^ b) = gsquare a ^^^ gsquare b := by
  simp only [gsquare, gmul_xor_left, gmul_xor_right, gmul_comm b a]
  calc gmul a a ^^^ gmul a b ^^^ (gmul a b ^^^ gmul b b)
      = gmul a a ^^^ gmul b b ^^^ (gmul a b ^^^ gmul a b) := by ac_rfl
    _ = gmul a a ^^^ gmul b b := by rw [BitVec.xor_self, BitVec.xor_zero]

theorem gsquare_gmul (a b : Byte) : gsquare (gmul a b) = gmul (gsquare a) (gsquare b) := by
  simp only [gsquare, gmul_assoc]
  rw [← gmul_assoc b a b, gmul_comm b a, gmul_assoc a b b]

theorem gsquare_two_iterate : gsquare^[8] 0x02#8 = 0x02#8 := by
  have h1 : gsquare 0x02#8 = 0x04#8 := by decide
  have h2 : gsquare 0x04#8 = 0x10#8 := by decide
  have h3 : gsquare 0x10#8 = 0x1b#8 := by decide
  have h4 : gsquare 0x1b#8 = 0x5e#8 := by decide
  have h5 : gsquare 0x5e#8 = 0xe4#8 := by decide
  have h6 : gsquare 0xe4#8 = 0x4d#8 := by decide
  have h7 : gsquare 0x4d#8 = 0xfa#8 := by decide
  have h8 : gsquare 0xfa#8 = 0x02#8 := by decide
  simp only [Function.iterate_succ_apply, Function.iterate_zero_apply, h1, h2, h3, h4, h5, h6, h7, h8]

/-- `a^256 = a`: the eightfold square is additive and multiplicative, and keeps 1 and 2. -/
theorem gsquare_iterate_eight (a : Byte) : gsquare^[8] a = a := by
  induction a using byte_induction with
  | one => exact Function.iterate_fixed (by rw [gsquare, gmul_one]) 8
  | double a ih =>
    rw [xtime_eq_gmul, Function.Semiconj₂.iterate gsquare_gmul 8, gsquare_two_iterate, ih]
  | add a b iha ihb => rw [Function.Semiconj₂.iterate gsquare_xor 8, iha, ihb]

/-- One step of the chain of `ginv` (log entry 11): from `x^(2^k)` to `x^(2^(k+1))`. -/
theorem gmul_gsquare_gmul (x y : Byte) : gmul (gmul (gsquare y) x) x = gsquare (gmul y x) := by
  rw [gsquare_gmul, gmul_assoc, gsquare, gsquare]

/-- `x^254 * x * x = x^256 = x`. -/
theorem gmul_ginv_gmul (x : Byte) : gmul (gmul (ginv x) x) x = x := by
  refine Eq.trans ?_ (gsquare_iterate_eight x)
  simp only [ginv, gmul_gsquare_gmul]
  rfl

/-- The solutions of `e^2 = e`, over the bytes by their two halves. -/
theorem eq_zero_or_one_of_gmul_self {e : Byte} (h : gmul e e = e) : e = 0x00#8 ∨ e = 0x01#8 := by
  have bytes : ∀ u v : BitVec 4, gmul (u ++ v) (u ++ v) = u ++ v → u ++ v = 0x00#8 ∨ u ++ v = 0x01#8 := by
    decide
  have halves : e.extractLsb' 4 4 ++ e.extractLsb' 0 4 = e := by
    rw [BitVec.extractLsb'_append_extractLsb'_eq_extractLsb' (start₁ := 0) (len₁ := 4) rfl,
      BitVec.extractLsb'_eq_self]
  have solved := bytes (e.extractLsb' 4 4) (e.extractLsb' 0 4)
  rw [halves] at solved
  exact solved h

/-- Every byte but 0 times its inverse is 1 (41_sbox.md R131): the product `e` has `e * e = e` and `e * x = x`. -/
theorem gmul_ginv {x : Byte} (hx : x ≠ 0x00#8) : gmul x (ginv x) = 0x01#8 := by
  rw [gmul_comm]
  have idem : gmul (gmul (ginv x) x) (gmul (ginv x) x) = gmul (ginv x) x := by
    rw [← gmul_assoc, gmul_comm _ (ginv x), gmul_assoc (ginv x), gmul_ginv_gmul]
  refine (eq_zero_or_one_of_gmul_self idem).resolve_left fun h0 => hx ?_
  rw [← gmul_ginv_gmul x, h0, zero_gmul]

/-- A byte has one inverse at most. -/
theorem eq_ginv_of_gmul_eq_one {x y : Byte} (hx : x ≠ 0x00#8) (hy : gmul x y = 0x01#8) : y = ginv x :=
  calc y = gmul (gmul x (ginv x)) y := by rw [gmul_ginv hx, one_gmul]
    _ = gmul (ginv x) (gmul x y) := by rw [gmul_comm x, gmul_assoc]
    _ = ginv x := by rw [hy, gmul_one]

/-! ## AES words -/

theorem coefMult_comm (a b : AesWord) : coefMult a b = coefMult b a := by
  simp only [coefMult, AesWord.mk.injEq, gmul_comm b.b0, gmul_comm b.b1, gmul_comm b.b2, gmul_comm b.b3]
  refine ⟨?_, ?_, ?_, ?_⟩ <;> ac_rfl

theorem coefMult_assoc (a b c : AesWord) : coefMult (coefMult a b) c = coefMult a (coefMult b c) := by
  simp only [coefMult, gmul_xor_left, gmul_xor_right, gmul_assoc, AesWord.mk.injEq]
  refine ⟨?_, ?_, ?_, ?_⟩ <;> ac_rfl

/-- The word 1 is neutral. -/
@[simp] theorem coefMult_one (a : AesWord) : coefMult a ⟨0x01#8, 0x00#8, 0x00#8, 0x00#8⟩ = a := by
  simp [coefMult]

/-- The word x rotates, as `x^4 = 1`. -/
@[simp] theorem coefMult_x (a : AesWord) :
    coefMult a ⟨0x00#8, 0x01#8, 0x00#8, 0x00#8⟩ = ⟨a.b3, a.b0, a.b1, a.b2⟩ := by
  simp [coefMult]

/-- The polynomials of MixColumns and InvMixColumns are inverses modulo x^4 + 1 (R114). -/
theorem coefMult_mix_invMix :
    coefMult ⟨0x02#8, 0x01#8, 0x01#8, 0x03#8⟩ ⟨0x0e#8, 0x09#8, 0x0d#8, 0x0b#8⟩ =
      ⟨0x01#8, 0x00#8, 0x00#8, 0x00#8⟩ := by decide

theorem coefMult_mix_cancel (b : AesWord) :
    coefMult ⟨0x02#8, 0x01#8, 0x01#8, 0x03#8⟩ (coefMult ⟨0x0e#8, 0x09#8, 0x0d#8, 0x0b#8⟩ b) = b := by
  rw [← coefMult_assoc, coefMult_mix_invMix, coefMult_comm, coefMult_one]

end Sys2Proof.Machine
end

section
/-! SUPPORT. Division of a carry-less product by 0x11B (40_galois_field.md R111). -/

namespace Sys2Proof.Claims

open Sys2Proof.Machine

theorem clmul_xor_left (a a' b : BitVec 16) : clmul (a ^^^ a') b = clmul a b ^^^ clmul a' b := by
  refine List.foldl_hom₂ _ (· ^^^ ·) _ _ _ 0#16 0#16 fun p q i => ?_
  rw [BitVec.shiftLeft_xor_distrib, ite_xor_left]

theorem clmul_xor_right (a b b' : BitVec 16) : clmul a (b ^^^ b') = clmul a b ^^^ clmul a b' := by
  refine List.foldl_hom₂ _ (· ^^^ ·) _ _ _ 0#16 0#16 fun p q i => ?_
  rw [BitVec.getLsbD_xor, ite_xor_right]

/-- The carry-less product of two bytes. -/
def byteProduct (a b : Byte) : BitVec 16 := clmul (a.setWidth 16) (b.setWidth 16)

theorem byteProduct_xor_left (a a' b : Byte) : byteProduct (a ^^^ a') b = byteProduct a b ^^^ byteProduct a' b := by
  simp only [byteProduct, BitVec.setWidth_xor, clmul_xor_left]

theorem byteProduct_xor_right (a b b' : Byte) : byteProduct a (b ^^^ b') = byteProduct a b ^^^ byteProduct a b' := by
  simp only [byteProduct, BitVec.setWidth_xor, clmul_xor_right]

/-- `r + 0x11B * q`: what has quotient `q` and remainder `r`. -/
def undivided (q : BitVec 7) (r : Byte) : BitVec 16 := r.setWidth 16 ^^^ clmul 0x011B#16 (q.setWidth 16)

theorem undivided_xor (q q' : BitVec 7) (r r' : Byte) :
    undivided (q ^^^ q') (r ^^^ r') = undivided q r ^^^ undivided q' r' := by
  simp only [undivided, BitVec.setWidth_xor, clmul_xor_right]
  ac_rfl

/-- The quotient by 0x11B of a polynomial of degree at most 14: its bits `h` from bit 8 up, and what
`x^8 = 0x11B + x^4 + x^3 + x + 1` carries up there again. -/
def quotient (p : BitVec 16) : BitVec 7 :=
  let h := p.extractLsb' 8 7
  h ^^^ h >>> 4 ^^^ h >>> 5

theorem quotient_xor (p p' : BitVec 16) : quotient (p ^^^ p') = quotient p ^^^ quotient p' := by
  simp only [quotient, BitVec.extractLsb'_xor, BitVec.ushiftRight_xor_distrib]
  ac_rfl

theorem quotient_undivided (q : BitVec 7) (r : Byte) : quotient (undivided q r) = q := by
  have hr : quotient (r.setWidth 16) = 0#7 :=
    eq_of_additive (f := fun r : Byte => quotient (r.setWidth 16)) (g := fun _ => 0#7)
      (fun x y => by rw [BitVec.setWidth_xor, quotient_xor]) (fun _ _ => rfl) (by decide) r
  have hq : quotient (clmul 0x011B#16 (q.setWidth 16)) = q :=
    eq_of_additive (f := fun q : BitVec 7 => quotient (clmul 0x011B#16 (q.setWidth 16))) (g := fun q => q)
      (fun x y => by rw [BitVec.setWidth_xor, clmul_xor_right, quotient_xor]) (fun _ _ => rfl) (by decide) q
  rw [undivided, quotient_xor, hr, hq, BitVec.zero_xor]

/-- The remainder of a division by 0x11B is the only one. -/
theorem undivided_right_inj {q q' : BitVec 7} {r r' : Byte} (h : undivided q r = undivided q' r') : r = r' := by
  obtain rfl : q = q' := by rw [← quotient_undivided q r, h, quotient_undivided]
  have hw : r.setWidth 16 = r'.setWidth 16 := (BitVec.xor_left_inj _).1 h
  simpa using congrArg (BitVec.setWidth 8) hw

/-- Division with remainder of a product of bytes: `gmul` is the remainder. Both sides are additive in each factor, so
single bits decide it. -/
theorem byteProduct_eq_undivided (a b : Byte) :
    byteProduct a b = undivided (quotient (byteProduct a b)) (gmul a b) := by
  have bits : ∀ i < 8, ∀ j < 8, byteProduct (.twoPow 8 i) (.twoPow 8 j) =
      undivided (quotient (byteProduct (.twoPow 8 i) (.twoPow 8 j))) (gmul (.twoPow 8 i) (.twoPow 8 j)) := by decide
  refine eq_of_additive (f := (byteProduct · b)) (g := fun a => undivided (quotient (byteProduct a b)) (gmul a b))
    (byteProduct_xor_left · · b) (fun x y => ?_) (fun i hi => ?_) a
  · rw [byteProduct_xor_left, quotient_xor, gmul_xor_left, undivided_xor]
  · refine eq_of_additive (f := byteProduct _) (g := fun b => undivided (quotient (byteProduct _ b)) (gmul _ b))
      (byteProduct_xor_right _) (fun x y => ?_) (bits i hi) b
    rw [byteProduct_xor_right, quotient_xor, gmul_xor_right, undivided_xor]

end Sys2Proof.Claims
end

section
/-! SUPPORT. What the commands of 40_galois_field.md leave (R115 to R119). -/

namespace Sys2Proof.Claims

open Sys2Proof.Machine

theorem opaByte_eq_setWidth (s : State) : opaByte s = s.opa.setWidth 8 :=
  (BitVec.setWidth_eq_extractLsb' (by decide)).symm

theorem opbByte_eq_setWidth (s : State) : opbByte s = s.opb.setWidth 8 :=
  (BitVec.setWidth_eq_extractLsb' (by decide)).symm

/-- The sum of the low bytes is the low byte of the sum (R115). -/
theorem setWidth_gadd_eq_and (s : State) :
    (gadd (opaByte s) (opbByte s)).setWidth 32 = (s.opa ^^^ s.opb) &&& 0x000000FF#32 := by
  rw [gadd, opaByte_eq_setWidth, opbByte_eq_setWidth, ← BitVec.setWidth_xor]
  apply BitVec.eq_of_toNat_eq
  rw [BitVec.toNat_and, show (0x000000FF#32).toNat = 2 ^ 8 - 1 from rfl, Nat.and_two_pow_sub_one_eq_mod]
  simp only [BitVec.toNat_setWidth]
  omega

/-- A register with its bytes rotated by one lane (R119). -/
theorem wordOfAes_rotate (w : Word) :
    wordOfAes ⟨laneByte w 3, laneByte w 0, laneByte w 1, laneByte w 2⟩ = w.rotateRight 8 := by
  apply BitVec.eq_of_getLsbD_eq
  intro i hi
  simp only [wordOfAes, laneByte, BitVec.getLsbD_append, BitVec.getLsbD_extractLsb', BitVec.getLsbD_rotateRight]
  grind

theorem exec_coefAdd (s : State) : exec .coefAdd s = .next (successEnd { s with res := s.opa ^^^ s.opb }) := by
  have h : wordOfAes (coefAdd (opaAes s) (opbAes s)) = s.opa ^^^ s.opb := by
    rw [wordOfAes_coefAdd, opaAes, opbAes, wordOfAes_aesOfWord, wordOfAes_aesOfWord]
  rw [← h]
  rfl

theorem exec_coefMult {s : State} {a b : AesWord} (ha : s.opa = wordOfAes a) (hb : s.opb = wordOfAes b) :
    exec .coefMult s = .next (successEnd { s with res := wordOfAes (coefMult a b) }) := by
  have hab : opaAes s = a ∧ opbAes s = b := by simp [opaAes, opbAes, ha, hb]
  rw [← hab.1, ← hab.2]
  rfl

end Sys2Proof.Claims
end

section
/-! PROOF. The statements about Galois-field arithmetic (40_galois_field.md R111, R114 to R119). -/

namespace Sys2Proof.Claims

open Sys2Proof.Machine

/-- Settles O9: `gmul` is a remainder of the product, and there is no other. -/
theorem gmulIsProductModulo11B : Obligations.GmulIsProductModulo11B := by
  intro a b r
  constructor
  · rintro rfl
    exact ⟨_, byteProduct_eq_undivided a b⟩
  · rintro ⟨q, hq⟩
    exact undivided_right_inj ((byteProduct_eq_undivided a b).symm.trans hq)

/-- Settles O10: the laws of the field and of its AES words; `ginv` gives the inverse. -/
theorem fieldLawsHold : Obligations.FieldLawsHold :=
  ⟨fun a => ⟨gmul_zero a, gmul_one a⟩, gmul_comm,
    fun a ha => ⟨ginv a, gmul_ginv ha, fun _ => eq_ginv_of_gmul_eq_one ha⟩, coefMult_comm, coefMult_mix_cancel⟩

/-- Settles O11: the low byte of a sum is the sum of the low bytes. -/
theorem byteFieldCommandsWriteRes : Obligations.ByteFieldCommandsWriteRes := by
  refine ⟨rfl, rfl, rfl, fun s => ⟨?_, ?_, ?_⟩, fun a => ⟨gmul_zero a, gmul_one a⟩, by decide, by decide⟩
  · rw [← setWidth_gadd_eq_and]
    rfl
  · rw [← setWidth_gadd_eq_and]
    rfl
  · rw [← opaByte_eq_setWidth, ← opbByte_eq_setWidth]
    rfl

/-- Settles O12: OPA and OPB as AES words, and the laws of their product. -/
theorem wordFieldCommandsWriteRes : Obligations.WordFieldCommandsWriteRes := by
  refine ⟨rfl, rfl, exec_coefAdd, ?_, fun s hb => ?_, fun s hb => ?_, fun s ha hb => ?_, ?_⟩
  · intro s a0 a1 a2 a3 b0 b1 b2 b3 ha hb
    rw [exec_coefMult (a := ⟨a0, a1, a2, a3⟩) (b := ⟨b0, b1, b2, b3⟩) ha hb]
    rfl
  · rw [exec_coefMult (wordOfAes_aesOfWord s.opa).symm (b := ⟨0x01#8, 0x00#8, 0x00#8, 0x00#8⟩) hb, coefMult_one,
      wordOfAes_aesOfWord]
  · rw [exec_coefMult (wordOfAes_aesOfWord s.opa).symm (b := ⟨0x00#8, 0x01#8, 0x00#8, 0x00#8⟩) hb, coefMult_x]
    exact congrArg (fun r => Host.Outcome.next (successEnd { s with res := r })) (wordOfAes_rotate s.opa)
  · rw [exec_coefMult (a := ⟨0x02#8, 0x01#8, 0x01#8, 0x03#8⟩) (b := ⟨0xdb#8, 0x13#8, 0x53#8, 0x45#8⟩) ha hb]
    have product : wordOfAes (coefMult ⟨0x02#8, 0x01#8, 0x01#8, 0x03#8⟩ ⟨0xdb#8, 0x13#8, 0x53#8, 0x45#8⟩) =
        0x8e4da1bc#32 := by decide
    rw [product]
  · intro s t ha hb
    refine ⟨_, _, rfl, rfl, ?_⟩
    simp only [completed_res, writeResAes_res, opaAes, opbAes, ha, hb]
    rw [coefMult_comm]

end Sys2Proof.Claims
end

section
/-! SUPPORT. The substitution of 41_sbox.md as a permutation of the bytes: the field inverse and the affine transform
each have an inverse (R131, R132), so ready tables hold its two directions (R133). -/

namespace Sys2Proof.Machine

/-! ## The field inverse -/

@[simp] theorem ginv_zero : ginv 0x00#8 = 0x00#8 := by simp [ginv, gsquare]

theorem ginv_ne_zero {x : Byte} (hx : x ≠ 0x00#8) : ginv x ≠ 0x00#8 := by
  intro h
  have product := gmul_ginv hx
  rw [h, gmul_zero] at product
  exact absurd product (by decide)

@[simp] theorem ginv_ginv (x : Byte) : ginv (ginv x) = x := by
  by_cases hx : x = 0x00#8
  · rw [hx, ginv_zero, ginv_zero]
  · exact (eq_ginv_of_gmul_eq_one (ginv_ne_zero hx) (by rw [gmul_comm, gmul_ginv hx])).symm

/-! ## The affine transform -/

theorem rotateLeft_xor {w : Nat} (x y : BitVec w) (n : Nat) :
    (x ^^^ y).rotateLeft n = x.rotateLeft n ^^^ y.rotateLeft n := by
  ext i hi
  simp only [BitVec.getElem_rotateLeft, BitVec.getElem_xor]
  split <;> rfl

/-- The additive part of the affine transform (R132). -/
def mixBits (b : Byte) : Byte :=
  b ^^^ b.rotateLeft 1 ^^^ b.rotateLeft 2 ^^^ b.rotateLeft 3 ^^^ b.rotateLeft 4

/-- The inverse of `mixBits`. -/
def unmixBits (b : Byte) : Byte := b.rotateLeft 1 ^^^ b.rotateLeft 3 ^^^ b.rotateLeft 6

/-- The inverse of the affine transform. -/
def unaffine (b : Byte) : Byte := unmixBits (b ^^^ 0x63#8)

theorem affine_eq_mixBits (b : Byte) : affine b = mixBits b ^^^ 0x63#8 := rfl

theorem mixBits_xor (a b : Byte) : mixBits (a ^^^ b) = mixBits a ^^^ mixBits b := by
  simp only [mixBits, rotateLeft_xor]
  ac_rfl

theorem unmixBits_xor (a b : Byte) : unmixBits (a ^^^ b) = unmixBits a ^^^ unmixBits b := by
  simp only [unmixBits, rotateLeft_xor]
  ac_rfl

theorem unmixBits_mixBits (b : Byte) : unmixBits (mixBits b) = b :=
  eq_of_additive (f := fun b => unmixBits (mixBits b)) (g := fun b => b)
    (fun x y => by rw [mixBits_xor, unmixBits_xor]) (fun _ _ => rfl) (by decide) b

theorem mixBits_unmixBits (b : Byte) : mixBits (unmixBits b) = b :=
  eq_of_additive (f := fun b => mixBits (unmixBits b)) (g := fun b => b)
    (fun x y => by rw [unmixBits_xor, mixBits_xor]) (fun _ _ => rfl) (by decide) b

@[simp] theorem unaffine_affine (b : Byte) : unaffine (affine b) = b := by
  rw [unaffine, affine_eq_mixBits, BitVec.xor_assoc, BitVec.xor_self, BitVec.xor_zero, unmixBits_mixBits]

@[simp] theorem affine_unaffine (b : Byte) : affine (unaffine b) = b := by
  rw [unaffine, affine_eq_mixBits, mixBits_unmixBits, BitVec.xor_assoc, BitVec.xor_self, BitVec.xor_zero]

/-! ## The generated tables -/

theorem sboxTable_getElem (x : Nat) (hx : x < 256) : sboxTable[x] = affine (ginv (BitVec.ofNat 8 x)) := by
  rw [sboxTable, Vector.getElem_ofFn]

/-- SBOX is one-to-one, as both of its parts have an inverse. -/
theorem sboxTable_injective (x y : Fin 256) (h : sboxTable[x] = sboxTable[y]) : x = y := by
  have undo : ∀ z : Fin 256, (ginv (unaffine sboxTable[z])).toNat = z.val := fun z => by
    rw [Fin.getElem_fin, sboxTable_getElem, unaffine_affine, ginv_ginv, BitVec.toNat_ofNat, Nat.mod_eq_of_lt z.isLt]
  exact Fin.ext (by rw [← undo x, h, undo y])

end Sys2Proof.Machine

namespace Sys2Proof.Claims

open Sys2Proof.Machine

/-- The generation step puts the tables in place, whatever they held (R135). -/
theorem tablesReady_generate (s : State) : tablesReady (generate s) := by
  refine ⟨rfl, fun _ => ⟨generate_sbox s, fun x => ?_⟩⟩
  simp only [generate_sbox, generate_invSbox]
  exact invSboxTable_undoes sboxTable s.invSbox sboxTable_injective x

section Ready

variable {s : State} (h : tablesReady s)
include h

theorem sboxAt_of_tablesReady (x : Byte) : sboxAt s x = affine (ginv x) := by
  obtain ⟨hr, ht⟩ := h
  simp only [sboxAt, hr, if_true, (ht hr).1, sboxTable_getElem, BitVec.ofNat_toNat, BitVec.setWidth_eq]

/-- INV_SBOX undoes SBOX (R133). -/
theorem invSboxAt_sboxAt (x : Byte) : invSboxAt s (sboxAt s x) = x := by
  obtain ⟨hr, ht⟩ := h
  simpa only [invSboxAt, sboxAt, hr, if_true] using (ht hr).2 x

theorem invSboxAt_of_tablesReady (y : Byte) : invSboxAt s y = ginv (unaffine y) := by
  have undone := invSboxAt_sboxAt h (ginv (unaffine y))
  rwa [sboxAt_of_tablesReady h, ginv_ginv, affine_unaffine] at undone

theorem sboxAt_invSboxAt (y : Byte) : sboxAt s (invSboxAt s y) = y := by
  rw [sboxAt_of_tablesReady h, invSboxAt_of_tablesReady h, ginv_ginv, affine_unaffine]

end Ready

end Sys2Proof.Claims
end

section
/-! SUPPORT. The printed tables (41_sbox.md R136, R137), checked entry by entry. -/

namespace Sys2Proof.Claims

open Sys2Proof.Machine

/-- The check that SBOX takes `x` to `y`: by the uniqueness of the inverse, one product decides it. -/
def isSboxPair (x y : Byte) : Bool := if x = 0x00#8 then y == 0x63#8 else gmul x (unaffine y) == 0x01#8

theorem affine_ginv_of_isSboxPair {x y : Byte} (h : isSboxPair x y = true) : affine (ginv x) = y := by
  unfold isSboxPair at h
  split at h
  case isTrue hx =>
    rw [beq_iff_eq.1 h, hx, ginv_zero]
    decide
  case isFalse hx => rw [← eq_ginv_of_gmul_eq_one hx (beq_iff_eq.1 h), affine_unaffine]

theorem ginv_unaffine_of_isSboxPair {x y : Byte} (h : isSboxPair x y = true) : ginv (unaffine y) = x := by
  rw [← affine_ginv_of_isSboxPair h, unaffine_affine, ginv_ginv]

theorem sboxAt_of_isSboxPair {s : State} (hs : tablesReady s) {x y : Byte} (h : isSboxPair x y = true) :
    sboxAt s x = y := by rw [sboxAt_of_tablesReady hs, affine_ginv_of_isSboxPair h]

theorem invSboxAt_of_isSboxPair {s : State} (hs : tablesReady s) {x y : Byte} (h : isSboxPair x y = true) :
    invSboxAt s y = x := by rw [invSboxAt_of_tablesReady hs, ginv_unaffine_of_isSboxPair h]

/-- Each printed SBOX entry passes the check against its index (R136). -/
theorem printedSbox_isSboxPair : ∀ p ∈ printedSbox.zipIdx, isSboxPair (BitVec.ofNat 8 p.2) p.1 = true := by
  decide +kernel

/-- Each printed INV_SBOX entry passes it with its index as the image (R137). -/
theorem printedInvSbox_isSboxPair : ∀ p ∈ printedInvSbox.zipIdx, isSboxPair p.1 (BitVec.ofNat 8 p.2) = true := by
  decide +kernel

theorem printedSbox_ne_index :
    ∀ p ∈ printedSbox.zipIdx, p.1 ≠ BitVec.ofNat 8 p.2 ∧ p.1 ≠ BitVec.ofNat 8 p.2 ^^^ 0xff#8 := by
  decide +kernel

theorem printedSbox_length : printedSbox.length = 256 := by decide +kernel

theorem printedInvSbox_length : printedInvSbox.length = 256 := by decide +kernel

/-- What holds of every entry of a table with its index holds of the entry of every byte. -/
theorem exists_entry_of_forall_zipIdx {l : List Byte} (hlen : l.length = 256) {P : Byte → Byte → Prop}
    (h : ∀ p ∈ l.zipIdx, P (BitVec.ofNat 8 p.2) p.1) (x : Byte) : ∃ y, l[x.toNat]? = some y ∧ P x y := by
  have hx : x.toNat < l.length := hlen ▸ x.isLt
  have entry := h (l[x.toNat], x.toNat) (List.mk_mem_zipIdx_iff_getElem?.2 (List.getElem?_eq_getElem hx))
  rw [BitVec.ofNat_toNat, BitVec.setWidth_eq] at entry
  exact ⟨_, List.getElem?_eq_getElem hx, entry⟩

theorem printedSbox_getElem? (x : Byte) : printedSbox[x.toNat]? = some (affine (ginv x)) := by
  obtain ⟨y, hy, pair⟩ := exists_entry_of_forall_zipIdx printedSbox_length
    (P := fun x y => isSboxPair x y = true) printedSbox_isSboxPair x
  rw [hy, affine_ginv_of_isSboxPair pair]

theorem printedInvSbox_getElem? (y : Byte) : printedInvSbox[y.toNat]? = some (ginv (unaffine y)) := by
  obtain ⟨x, hx, pair⟩ := exists_entry_of_forall_zipIdx printedInvSbox_length
    (P := fun y x => isSboxPair x y = true) printedInvSbox_isSboxPair y
  rw [hx, ginv_unaffine_of_isSboxPair pair]

/-- SBOX has no fixed and no opposite fixed point (R138). -/
theorem affine_ginv_ne (x : Byte) : affine (ginv x) ≠ x ∧ affine (ginv x) ≠ x ^^^ 0xff#8 := by
  obtain ⟨y, hy, hne⟩ := exists_entry_of_forall_zipIdx printedSbox_length
    (P := fun x y => y ≠ x ∧ y ≠ x ^^^ 0xff#8) printedSbox_ne_index x
  rw [printedSbox_getElem?, Option.some_inj] at hy
  rwa [hy]

end Sys2Proof.Claims
end

section
/-! SUPPORT. The host's reads of the table windows (41_sbox.md R139). -/

namespace Sys2Proof.Claims

open Sys2Proof.Machine

/-- The step of a read of a table window while BUSY = 0 (R139). -/
theorem step_of_tableRead {s : State} {rest : List Event} {a : Nat} (h : hostReads s rest a) (hb : s.busy = false)
    {τ : Target} (hτ : ∀ x : BitVec 14, x.toNat = a → targetOf x = τ) (hw : isTableWindow τ = true) :
    step s = .next (if s.sboxReady then returned s rest (readTarget s τ) else answered s rest) := by
  have draw : readIsDraw s τ = !s.sboxReady := by simp [readIsDraw, hb, hw]
  cases hr : s.sboxReady with
  | true => exact step_of_hostReads h hτ (by rw [draw, hr]; rfl)
  | false => exact step_of_drawnRead h fun x hx _ => by rw [hτ x hx, draw, hr]; rfl

end Sys2Proof.Claims
end

section
/-! PROOF. The statements about the substitution tables (41_sbox.md R131 to R133, R136 to R141). -/

namespace Sys2Proof.Claims

open Sys2Proof.Machine

/-- Settles O6: `ginv` gives an inverse, and a byte has no other. -/
theorem ginvIsTheUniqueInverse : Obligations.GinvIsTheUniqueInverse :=
  ⟨ginv_zero, fun _ hx => ⟨gmul_ginv hx, fun _ => eq_ginv_of_gmul_eq_one hx⟩⟩

/-- Settles O3: the turn is `generate`, which puts the tables in place. -/
theorem generationWritesBothTables : Obligations.GenerationWritesBothTables := by
  intro s rest ht hr
  have ready := tablesReady_generate { s with agenda := rest }
  refine ⟨_, ?_, ?_, sboxAt_of_tablesReady ready, invSboxAt_sboxAt ready⟩
  · rw [step_of_engineTurn ht, engineStep, if_neg (by simp [hr])]
  · simp only [generate]

/-- Settles O4: each printed entry passed the check of a pair, which the inverse's uniqueness makes exact. -/
theorem generatedTablesAreThePrintedOnes : Obligations.GeneratedTablesAreThePrintedOnes := by
  intro s x
  have ready := tablesReady_generate s
  rw [sboxAt_of_tablesReady ready, invSboxAt_of_tablesReady ready, printedSbox_getElem?, printedInvSbox_getElem?]
  exact ⟨rfl, rfl⟩

/-- Settles O5: the two directions undo each other, and no printed entry is its index or its index's complement. -/
theorem generatedTablesAreMutuallyInverse : Obligations.GeneratedTablesAreMutuallyInverse := by
  intro s
  have ready := tablesReady_generate s
  refine ⟨fun x => ⟨invSboxAt_sboxAt ready x, sboxAt_invSboxAt ready x, ?_⟩, ?_⟩
  · rw [sboxAt_of_tablesReady ready]
    exact affine_ginv_ne x
  · exact ⟨sboxAt_of_isSboxPair ready rfl, sboxAt_of_isSboxPair ready rfl, sboxAt_of_isSboxPair ready rfl,
      sboxAt_of_isSboxPair ready rfl, invSboxAt_of_isSboxPair ready rfl, invSboxAt_of_isSboxPair ready rfl⟩

/-- Settles O7: the byte with the SBOX entry OPA[7:0] comes from undoing the affine transform, then the inverse. -/
theorem lookupCommandsReadTheTables : Obligations.LookupCommandsReadTheTables := by
  refine ⟨rfl, rfl, fun s hs => ⟨?_, ginv (unaffine (s.opa.setWidth 8)), ?_, ?_⟩, ?_⟩
  · rw [← opaByte_eq_setWidth, ← sboxAt_of_tablesReady hs]
    rfl
  · rw [ginv_ginv, affine_unaffine]
  · rw [← opaByte_eq_setWidth, ← invSboxAt_of_tablesReady hs]
    rfl
  · exact ⟨affine_ginv_of_isSboxPair rfl, affine_ginv_of_isSboxPair rfl, affine_ginv_of_isSboxPair rfl⟩

/-- Settles O8: the windows' targets, read or drawn as SBOX_READY says, and the first word's four pairs. -/
theorem tableWindowsReadFourEntries : Obligations.TableWindowsReadFourEntries := by
  intro s rest k hk hb
  refine ⟨fun h => ?_, fun h hs => ?_, fun h => ?_⟩
  · exact step_of_tableRead h hb (fun x hx => targetOf_sbox x ⟨k, hk⟩ hx) rfl
  · rw [step_of_tableRead h hb (fun x hx => targetOf_sbox x 0 hx) rfl, if_pos hs.1]
    have word : readTarget s (.sbox 0) = 0x637c777b#32 := by
      rw [readTarget, tableWord, sboxAt_of_isSboxPair hs (y := 0x63#8) rfl, sboxAt_of_isSboxPair hs (y := 0x7c#8) rfl,
        sboxAt_of_isSboxPair hs (y := 0x77#8) rfl, sboxAt_of_isSboxPair hs (y := 0x7b#8) rfl]
      rfl
    rw [word]
  · exact step_of_tableRead h hb (fun x hx => targetOf_invSbox x ⟨k, hk⟩ hx) rfl

end Sys2Proof.Claims
end

section
/-! SUPPORT. The key expansion (42_key_schedule.md): its words on registers, and the recurrence they follow. -/

namespace Sys2Proof.Machine

/-! ## The parts of the temporary -/

/-- RotWord on a register (R152). -/
theorem wordOfAes_rotWord (t : AesWord) : wordOfAes (rotWord t) = (wordOfAes t).rotateLeft 8 := by
  apply BitVec.eq_of_getLsbD_eq
  intro i hi
  simp only [wordOfAes, rotWord, BitVec.getLsbD_append, BitVec.getLsbD_rotateLeft]
  grind

/-- `[r, 0, 0, 0]` in a register (R151). -/
theorem wordOfAes_byte0 (r : Byte) : wordOfAes ⟨r, 0x00#8, 0x00#8, 0x00#8⟩ = r.setWidth 32 <<< 24 := by
  apply BitVec.eq_of_getLsbD_eq
  intro i hi
  simp only [wordOfAes, BitVec.getLsbD_append, BitVec.getLsbD_shiftLeft, BitVec.getLsbD_setWidth]
  grind

theorem schedTemp_of_mod_eq_zero (sb : Byte → Byte) {i : Nat} (hi : i % 4 = 0) (prev : AesWord) :
    schedTemp sb i prev = coefAdd (subWord sb (rotWord prev)) ⟨rc (i / 4), 0x00#8, 0x00#8, 0x00#8⟩ := by
  simp [schedTemp, hi, coefAdd, gadd]

theorem schedTemp_of_mod_ne_zero (sb : Byte → Byte) {i : Nat} (hi : i % 4 ≠ 0) (prev : AesWord) :
    schedTemp sb i prev = prev := if_neg hi

/-! ## The words of the expansion -/

/-- Each word of an expansion is made from the words four places and one place before it (R154). -/
theorem expandFrom_getElem_add_four (sb : Byte → Byte) (j : Nat) {n i : Nat} {a b c d : AesWord}
    (h : j + 4 < (expandFrom sb n i a b c d).length) :
    (expandFrom sb n i a b c d)[j + 4] =
      schedNext sb (i + j) (expandFrom sb n i a b c d)[j] (expandFrom sb n i a b c d)[j + 3] := by
  induction j generalizing n i a b c d with
  | zero =>
    rw [expandFrom_length] at h
    obtain ⟨m, rfl⟩ := Nat.exists_eq_add_of_le' h
    rfl
  | succ j ih =>
    rw [expandFrom_length] at h
    obtain ⟨m, rfl⟩ := Nat.exists_eq_add_of_le' (Nat.one_le_of_lt h)
    simp only [expandFrom, List.getElem_cons_succ]
    rw [ih (by rw [expandFrom_length]; omega), Nat.add_right_comm i 1 j, Nat.add_assoc i j 1]

/-- The first four words are the key (R150). -/
theorem expandKey_getElem_of_lt_four (sb : Byte → Byte) (key : Vector Word 4) (i : Nat) (h : i < 4) :
    (expandKey sb key)[i] = key[i] := by
  match i, h with
  | 0, _ => exact wordOfAes_aesOfWord key[0]
  | 1, _ => exact wordOfAes_aesOfWord key[1]
  | 2, _ => exact wordOfAes_aesOfWord key[2]
  | 3, _ => exact wordOfAes_aesOfWord key[3]

/-- The recurrence on registers, with the temporary read from the register before (R154). -/
theorem expandKey_getElem_add_four (sb : Byte → Byte) (key : Vector Word 4) (j : Nat) (h : j + 4 < 44) :
    (expandKey sb key)[j + 4] =
      (expandKey sb key)[j] ^^^ wordOfAes (schedTemp sb (j + 4) (aesOfWord (expandKey sb key)[j + 3])) := by
  simp only [expandKey, Vector.getElem_mk, List.getElem_toArray, List.getElem_map, aesOfWord_wordOfAes]
  rw [expandFrom_getElem_add_four, schedNext, wordOfAes_coefAdd, Nat.add_comm 4 j]

end Sys2Proof.Machine

namespace Sys2Proof.Claims

open Sys2Proof.Machine

theorem wordOfAes_subWord (sb : Byte → Byte) (t : AesWord) :
    wordOfAes (subWord sb t) = subWordReg sb (wordOfAes t) := by
  conv_lhs => rw [← aesOfWord_wordOfAes t]
  rfl

/-- The temporary on registers (R151 to R154). -/
theorem wordOfAes_schedTemp (sb : Byte → Byte) (i : Nat) (w : Word) :
    wordOfAes (schedTemp sb i (aesOfWord w)) =
      if i % 4 = 0 then subWordReg sb (w.rotateLeft 8) ^^^ ((rc (i / 4)).setWidth 32 <<< 24) else w := by
  split
  case isTrue hi =>
    rw [schedTemp_of_mod_eq_zero sb hi, wordOfAes_coefAdd, wordOfAes_byte0, wordOfAes_subWord, wordOfAes_rotWord,
      wordOfAes_aesOfWord]
  case isFalse hi => rw [schedTemp_of_mod_ne_zero sb hi, wordOfAes_aesOfWord]

/-- KEY_EXPAND with a key (R157). -/
theorem exec_keyExpand {s : State} (hk : keyValid s = true) :
    exec .keyExpand s = .next (successEnd (withSchedule s)) :=
  if_pos hk

@[simp] theorem schedWords_withSchedule (s : State) :
    schedWords (successEnd (withSchedule s)) = expandKey (sboxAt s) s.key := rfl

end Sys2Proof.Claims
end

section
/-! PROOF. The statements about the key expansion (42_key_schedule.md R150 to R154). -/

namespace Sys2Proof.Claims

open Sys2Proof.Machine

/-- Settles O14: the recurrence holds of the AES words of any expansion, and each part of the temporary has its form
on registers. -/
theorem expansionFollowsTheRecurrence : Obligations.ExpansionFollowsTheRecurrence := by
  refine ⟨fun s hk => ⟨_, exec_keyExpand hk, schedWords_withSchedule s⟩,
    fun sb key => ⟨expandKey_getElem_of_lt_four sb key, fun i h hi => ?_⟩⟩
  obtain ⟨j, rfl⟩ := Nat.exists_eq_add_of_le' hi
  rw [← wordOfAes_schedTemp]
  exact expandKey_getElem_add_four sb key j h

/-- Settles O13: at a multiple of 4 the temporary adds the round constant to byte 0, and the constants double by
definition. -/
theorem roundConstantsDouble : Obligations.RoundConstantsDouble := by
  refine ⟨fun sb i t _ => ?_, rfl, fun i hi => ?_, by decide⟩
  · rw [schedTemp_of_mod_eq_zero sb (Nat.mul_mod_right 4 i), Nat.mul_div_cancel_left i (by decide)]
    rfl
  · obtain ⟨j, rfl⟩ := Nat.exists_eq_add_of_le' hi
    rfl

end Sys2Proof.Claims
end

section
/-! SUPPORT. The block in STATE and the round operations on it (43_round_ops.md R172 to R178): the bytes each operation
leaves, and the laws between the operations (R179). -/

namespace Sys2Proof.Machine

/-! ## The block in STATE -/

/-- A completion leaves the block. -/
@[simp] theorem loadBlock_completed (s : State) : loadBlock (completed s) = loadBlock s := rfl

/-- The block read from STATE and stored again gives the same registers. -/
theorem storeBlock_loadBlock_blk (s t : State) : (storeBlock (loadBlock s) t).blk = s.blk := by
  simp only [storeBlock_blk, loadBlock, wordOfAes_aesOfWord]
  ext i hi
  match i, hi with
  | 0, _ | 1, _ | 2, _ | 3, _ => rfl

/-! ## Bytes -/

@[simp] theorem stateByte_subBytes (sb : Byte → Byte) (x : AesState) (r c : Fin 4) :
    stateByte (subBytes sb x) r c = sb (stateByte x r c) := by
  revert r c
  simp [Fin.forall_fin_succ, stateByte, subBytes, subWord, aesByte]

@[simp] theorem stateByte_shiftRows (x : AesState) (r c : Fin 4) :
    stateByte (shiftRows x) r c = stateByte x r (c + r) := stateByte_stateOf _ r c

@[simp] theorem stateByte_invShiftRows (x : AesState) (r c : Fin 4) :
    stateByte (invShiftRows x) r c = stateByte x r (c - r) := stateByte_stateOf _ r c

/-- Row `r` of the product of a column: the polynomial's bytes rotated by `r`, modulo 4, against the column's (R113). -/
theorem stateByte_mulColumns (p : AesWord) (x : AesState) (r c : Fin 4) :
    stateByte (mulColumns p x) r c =
      gmul (aesByte p r) (stateByte x 0 c) ^^^ gmul (aesByte p (r + 3)) (stateByte x 1 c) ^^^
        gmul (aesByte p (r + 2)) (stateByte x 2 c) ^^^ gmul (aesByte p (r + 1)) (stateByte x 3 c) := by
  match r, c with
  | 0, 0 | 0, 1 | 0, 2 | 0, 3 | 1, 0 | 1, 1 | 1, 2 | 1, 3
  | 2, 0 | 2, 1 | 2, 2 | 2, 3 | 3, 0 | 3, 1 | 3, 2 | 3, 3 => rfl

/-! ## Laws between the operations -/

/-- A substitution undone by a table that is its inverse. -/
theorem subBytes_subBytes_cancel {sb isb : Byte → Byte} (h : ∀ y, isb (sb y) = y) (x : AesState) :
    subBytes isb (subBytes sb x) = x :=
  aesState_ext_byte fun r c => by rw [stateByte_subBytes, stateByte_subBytes, h]

@[simp] theorem invShiftRows_shiftRows (x : AesState) : invShiftRows (shiftRows x) = x :=
  aesState_ext_byte fun r c => by rw [stateByte_invShiftRows, stateByte_shiftRows, sub_add_cancel]

/-- A substitution is bytewise, so it commutes with ShiftRows. -/
theorem subBytes_shiftRows (sb : Byte → Byte) (x : AesState) :
    subBytes sb (shiftRows x) = shiftRows (subBytes sb x) :=
  aesState_ext_byte fun r c => by simp only [stateByte_subBytes, stateByte_shiftRows]

/-- A substitution is bytewise, so it commutes with InvShiftRows. -/
theorem subBytes_invShiftRows (sb : Byte → Byte) (x : AesState) :
    subBytes sb (invShiftRows x) = invShiftRows (subBytes sb x) :=
  aesState_ext_byte fun r c => by simp only [stateByte_subBytes, stateByte_invShiftRows]

theorem coefMult_invMix_cancel (b : AesWord) :
    coefMult ⟨0x0e#8, 0x09#8, 0x0d#8, 0x0b#8⟩ (coefMult ⟨0x02#8, 0x01#8, 0x01#8, 0x03#8⟩ b) = b := by
  rw [← coefMult_assoc, coefMult_comm ⟨0x0e#8, _, _, _⟩, coefMult_assoc, coefMult_mix_cancel]

@[simp] theorem invMixColumns_mixColumns (x : AesState) : invMixColumns (mixColumns x) = x := by
  simp only [invMixColumns, mixColumns, mulColumns, coefMult_invMix_cancel]

theorem coefAdd_coefAdd_cancel (a b : AesWord) : coefAdd (coefAdd a b) b = a := by
  simp only [coefAdd, gadd, BitVec.xor_assoc, BitVec.xor_self, BitVec.xor_zero]

@[simp] theorem addRoundKey_addRoundKey (rk x : AesState) : addRoundKey rk (addRoundKey rk x) = x := by
  simp only [addRoundKey, coefAdd_coefAdd_cancel]

/-! ## The commands -/

/-- Command `i` applies `f` to the block and succeeds: in state `s`, and in what a round command on `s` leaves. -/
def ActsOnBlock (s : State) (i : Instr) (f : AesState → AesState) : Prop :=
  exec i s = onBlock f s ∧ ∀ x, exec i (completed (storeBlock x s)) = onBlock f (completed (storeBlock x s))

theorem subBytes_actsOnBlock (s : State) : ActsOnBlock s .subBytes (subBytes (sboxAt s)) := ⟨rfl, fun _ => rfl⟩

theorem invSubBytes_actsOnBlock (s : State) : ActsOnBlock s .invSubBytes (subBytes (invSboxAt s)) :=
  ⟨rfl, fun _ => rfl⟩

theorem shiftRows_actsOnBlock (s : State) : ActsOnBlock s .shiftRows shiftRows := ⟨rfl, fun _ => rfl⟩

theorem invShiftRows_actsOnBlock (s : State) : ActsOnBlock s .invShiftRows invShiftRows := ⟨rfl, fun _ => rfl⟩

theorem mixColumns_actsOnBlock (s : State) : ActsOnBlock s .mixColumns mixColumns := ⟨rfl, fun _ => rfl⟩

theorem invMixColumns_actsOnBlock (s : State) : ActsOnBlock s .invMixColumns invMixColumns := ⟨rfl, fun _ => rfl⟩

/-- ADD_ROUND_KEY with a schedule (R183). -/
theorem exec_addRoundKey {k : BitVec 4} {s : State} (hk : k.toNat ≤ 10) (hv : s.schedValid = true) :
    exec (.addRoundKey k) s =
      onBlock (addRoundKey (roundKey (schedWords s) ⟨k.toNat, Nat.lt_succ_of_le hk⟩)) s := by
  rw [exec, execAddRoundKey, dif_pos hk, if_pos hv]

theorem addRoundKey_actsOnBlock {k : BitVec 4} {s : State} (hk : k.toNat ≤ 10) (hv : s.schedValid = true) :
    ActsOnBlock s (.addRoundKey k) (addRoundKey (roundKey (schedWords s) ⟨k.toNat, Nat.lt_succ_of_le hk⟩)) :=
  ⟨exec_addRoundKey hk hv, fun _ => exec_addRoundKey hk hv⟩

end Sys2Proof.Machine

namespace Sys2Proof.Claims

open Sys2Proof.Machine

theorem byteAt_eq_stateByte (s : State) (r c : Fin 4) : byteAt s r c = stateByte (loadBlock s) r c := by
  match r, c with
  | 0, 0 | 0, 1 | 0, 2 | 0, 3 | 1, 0 | 1, 1 | 1, 2 | 1, 3
  | 2, 0 | 2, 1 | 2, 2 | 2, 3 | 3, 0 | 3, 1 | 3, 2 | 3, 3 => rfl

/-- What a round command leaves: the flags of success, the new block, and nothing else changed. -/
theorem exec_of_actsOnBlock {s : State} {i : Instr} {f : AesState → AesState} (h : ActsOnBlock s i f) :
    ∃ t, exec i s = .next t ∧ t = successEnd { s with blk := t.blk } ∧
      ∀ r c : Fin 4, byteAt t r c = stateByte (f (loadBlock s)) r c :=
  ⟨_, h.1, rfl, fun r c => by rw [byteAt_eq_stateByte, loadBlock_completed, loadBlock_storeBlock]⟩

section Pair

variable {s : State} {i j : Instr} {f g : AesState → AesState} (hi : ActsOnBlock s i f) (hj : ActsOnBlock s j g)
include hi hj

/-- Two round commands, one after the other, are one operation on the block. -/
theorem runAll_pair : runAll [i, j] s = .next (completed (storeBlock (g (f (loadBlock s))) s)) := by
  simp only [runAll, hi.1, hj.2, onBlock, complete, loadBlock_completed, loadBlock_storeBlock]
  rfl

/-- Two round commands restore STATE when their operations cancel. -/
theorem runAll_pair_restores (cancel : ∀ x, g (f x) = x) : ∃ t, runAll [i, j] s = .next t ∧ t.blk = s.blk :=
  ⟨_, runAll_pair hi hj, by rw [cancel, completed_blk, storeBlock_loadBlock_blk]⟩

/-- Two round commands commute when their operations do. -/
theorem runAll_pair_comm (comm : ∀ x, f (g x) = g (f x)) : runAll [i, j] s = runAll [j, i] s := by
  rw [runAll_pair hi hj, runAll_pair hj hi, comm]

end Pair

end Sys2Proof.Claims
end

section
/-! PROOF. The statements about the round commands (43_round_ops.md R172 to R174, R176 to R179). -/

namespace Sys2Proof.Claims

open Sys2Proof.Machine

/-- Settles O16: each byte of the new block is the table's entry for the old byte. -/
theorem substitutionCommandsMapEveryByte : Obligations.SubstitutionCommandsMapEveryByte := by
  intro s
  obtain ⟨t, run, frame, bytes⟩ := exec_of_actsOnBlock (subBytes_actsOnBlock s)
  obtain ⟨u, run', frame', bytes'⟩ := exec_of_actsOnBlock (invSubBytes_actsOnBlock s)
  refine ⟨⟨t, run, frame, fun r c => ?_⟩, u, run', frame', fun r c => ?_⟩
  · rw [bytes, stateByte_subBytes, byteAt_eq_stateByte]
  · rw [bytes', stateByte_subBytes, byteAt_eq_stateByte]

/-- Settles O17: columns are numbers modulo 4, so the inverse shift's `c - r` undoes `c + r`. -/
theorem shiftCommandsRotateRows : Obligations.ShiftCommandsRotateRows := by
  intro s
  obtain ⟨t, run, frame, bytes⟩ := exec_of_actsOnBlock (shiftRows_actsOnBlock s)
  obtain ⟨u, run', frame', bytes'⟩ := exec_of_actsOnBlock (invShiftRows_actsOnBlock s)
  refine ⟨⟨t, run, frame, fun r c => ?_⟩, u, run', frame', fun r c => ?_⟩
  · rw [bytes, stateByte_shiftRows, byteAt_eq_stateByte]
  · rw [bytes', stateByte_invShiftRows, add_sub_cancel_right, byteAt_eq_stateByte]

/-- Settles O18: the rows of the product with each fixed polynomial. -/
theorem mixCommandsMultiplyColumns : Obligations.MixCommandsMultiplyColumns := by
  intro s
  obtain ⟨t, run, frame, bytes⟩ := exec_of_actsOnBlock (mixColumns_actsOnBlock s)
  obtain ⟨u, run', frame', bytes'⟩ := exec_of_actsOnBlock (invMixColumns_actsOnBlock s)
  refine ⟨⟨t, run, frame, fun c => ?_⟩, u, run', frame', fun c => ?_⟩
  · simp [bytes, byteAt_eq_stateByte, mixColumns, stateByte_mulColumns, aesByte]
  · simp [bytes', byteAt_eq_stateByte, invMixColumns, stateByte_mulColumns, aesByte]

/-- Settles O20: each pair of commands is its pair of operations on the block, and those cancel or commute. -/
theorem roundCommandsUndoEachOther : Obligations.RoundCommandsUndoEachOther := by
  refine ⟨fun s hs => ?_, fun s => ?_, fun s => ?_, fun s k hk hv => ?_, fun s => ⟨?_, ?_, ?_, ?_⟩⟩
  · exact runAll_pair_restores (subBytes_actsOnBlock s) (invSubBytes_actsOnBlock s)
      (subBytes_subBytes_cancel (invSboxAt_sboxAt hs))
  · exact runAll_pair_restores (shiftRows_actsOnBlock s) (invShiftRows_actsOnBlock s) invShiftRows_shiftRows
  · exact runAll_pair_restores (mixColumns_actsOnBlock s) (invMixColumns_actsOnBlock s) invMixColumns_mixColumns
  · exact runAll_pair_restores (addRoundKey_actsOnBlock hk hv) (addRoundKey_actsOnBlock hk hv)
      (addRoundKey_addRoundKey _)
  · exact runAll_pair_comm (subBytes_actsOnBlock s) (shiftRows_actsOnBlock s) (subBytes_shiftRows _)
  · exact runAll_pair_comm (subBytes_actsOnBlock s) (invShiftRows_actsOnBlock s) (subBytes_invShiftRows _)
  · exact runAll_pair_comm (invSubBytes_actsOnBlock s) (shiftRows_actsOnBlock s) (subBytes_shiftRows _)
  · exact runAll_pair_comm (invSubBytes_actsOnBlock s) (invShiftRows_actsOnBlock s) (subBytes_invShiftRows _)

end Sys2Proof.Claims
end

section
/-! SUPPORT. The block cipher and its inverse (44_block_cipher.md R200 to R203): how their rounds cancel, and the block
commands as operations on the block (R204, R205). -/

namespace Sys2Proof.Machine

/-! ## The inverse laws of R179, the inverse operation first -/

@[simp] theorem shiftRows_invShiftRows (x : AesState) : shiftRows (invShiftRows x) = x :=
  aesState_ext_byte fun r c => by rw [stateByte_shiftRows, stateByte_invShiftRows, add_sub_cancel_right]

@[simp] theorem mixColumns_invMixColumns (x : AesState) : mixColumns (invMixColumns x) = x := by
  simp only [invMixColumns, mixColumns, mulColumns, coefMult_mix_cancel]

/-! ## Rounds -/

/-- Rounds run backwards undo rounds up to a layer `q`, when each round does: an inverse round of R201 undoes a round of
R200 only with the substitution and the shift that lie between them. -/
theorem foldl_reverse_undoes {α β ι : Type} {f : α → ι → α} {g : β → ι → β} {q : α → β}
    (round : ∀ a i, g (q (f a i)) i = q a) (is : List ι) (a : α) :
    is.reverse.foldl g (q (is.foldl f a)) = q a := by
  induction is generalizing a with
  | nil => rfl
  | cons i is ih => simp only [List.reverse_cons, List.foldl_append, List.foldl_cons, List.foldl_nil, ih, round]

section Rounds

variable {sb isb : Byte → Byte} (w : Vector Word 44)

/-- A main round, then SubBytes and ShiftRows, undone but for these two by the inverse round (R200, R201). -/
theorem invCipherRound_cipherRound (undo : ∀ y, isb (sb y) = y) (x : AesState) (r : Fin 11) :
    invCipherRound isb w (shiftRows (subBytes sb (cipherRound sb w x r))) r = shiftRows (subBytes sb x) := by
  rw [invCipherRound, invShiftRows_shiftRows, subBytes_subBytes_cancel undo, cipherRound, addRoundKey_addRoundKey,
    invMixColumns_mixColumns]

/-- An inverse round, then InvShiftRows and InvSubBytes, undone but for these two by the main round (R200, R201). -/
theorem cipherRound_invCipherRound (undo : ∀ y, sb (isb y) = y) (x : AesState) (r : Fin 11) :
    cipherRound sb w (subBytes isb (invShiftRows (invCipherRound isb w x r))) r = subBytes isb (invShiftRows x) := by
  rw [cipherRound, subBytes_subBytes_cancel undo, shiftRows_invShiftRows, invCipherRound, mixColumns_invMixColumns,
    addRoundKey_addRoundKey]

/-- The inverse main rounds, after the substitution and the shift of the last round. -/
theorem invRounds_rounds (undo : ∀ y, isb (sb y) = y) (rs : List (Fin 11)) (x : AesState) :
    rs.reverse.foldl (invCipherRound isb w) (shiftRows (subBytes sb (rs.foldl (cipherRound sb w) x))) =
      shiftRows (subBytes sb x) :=
  foldl_reverse_undoes (q := fun y => shiftRows (subBytes sb y)) (invCipherRound_cipherRound w undo) rs x

/-- The main rounds, after the shift and the substitution of the last inverse round. -/
theorem rounds_invRounds (undo : ∀ y, sb (isb y) = y) (rs : List (Fin 11)) (x : AesState) :
    rs.foldl (cipherRound sb w) (subBytes isb (invShiftRows (rs.reverse.foldl (invCipherRound isb w) x))) =
      subBytes isb (invShiftRows x) := by
  simpa only [List.reverse_reverse] using
    foldl_reverse_undoes (q := fun y => subBytes isb (invShiftRows y)) (cipherRound_invCipherRound w undo) rs.reverse x

/-! ## The cipher -/

/-- `InvCipher(Cipher(x, w), w) = x` (R203), through a table and one that undoes it. -/
theorem invCipher_cipher (undo : ∀ y, isb (sb y) = y) (x : AesState) : invCipher isb w (cipher sb w x) = x := by
  simp only [invCipher, cipher]
  rw [addRoundKey_addRoundKey, invRounds_rounds w undo, invShiftRows_shiftRows, subBytes_subBytes_cancel undo,
    addRoundKey_addRoundKey]

/-- `Cipher(InvCipher(x, w), w) = x` (R203), through a table that undoes the other. -/
theorem cipher_invCipher (undo : ∀ y, sb (isb y) = y) (x : AesState) : cipher sb w (invCipher isb w x) = x := by
  simp only [invCipher, cipher]
  rw [addRoundKey_addRoundKey, rounds_invRounds w undo, subBytes_subBytes_cancel undo, shiftRows_invShiftRows,
    addRoundKey_addRoundKey]

end Rounds

/-! ## The commands -/

theorem encryptBlock_actsOnBlock {s : State} (hv : s.schedValid = true) :
    ActsOnBlock s .encryptBlock (cipher (sboxAt s) (schedWords s)) :=
  ⟨if_pos hv, fun _ => if_pos hv⟩

theorem decryptBlock_actsOnBlock {s : State} (hv : s.schedValid = true) :
    ActsOnBlock s .decryptBlock (invCipher (invSboxAt s) (schedWords s)) :=
  ⟨if_pos hv, fun _ => if_pos hv⟩

end Sys2Proof.Machine
end

section
/-! PROOF. The statement about the block commands (44_block_cipher.md R203). -/

namespace Sys2Proof.Claims

open Sys2Proof.Machine

/-- Settles O22: each block command is its pipeline on the block, and the pipelines cancel since the tables do. -/
theorem blockCommandsUndoEachOther : Obligations.BlockCommandsUndoEachOther := by
  intro s hs hv
  have enc := encryptBlock_actsOnBlock hv
  have dec := decryptBlock_actsOnBlock hv
  exact ⟨runAll_pair_restores enc dec (invCipher_cipher _ (invSboxAt_sboxAt hs)),
    runAll_pair_restores dec enc (cipher_invCipher _ (sboxAt_invSboxAt hs))⟩

end Sys2Proof.Claims
end

section
/-! SUPPORT. The unpad heuristic (45_ecb_codec.md R224): the run of equal bytes at the end of a buffer, and what is
stripped of a buffer that ends in a padding (R231). -/

namespace Sys2Proof.Machine

/-- The leading `v`s of a list reach `r` when each of its first `r` entries is `v`. -/
theorem le_length_takeWhile_beq_iff (v : Byte) (l : List Byte) (r : Nat) :
    r ≤ (l.takeWhile (· == v)).length ↔ ∀ j < r, l[j]? = some v := by
  induction r generalizing l with
  | zero => simp
  | succ r ih =>
    rw [Nat.forall_lt_succ_left]
    cases l with
    | nil => simp
    | cons a l =>
      by_cases h : a = v
      · simp [h, ih]
      · simp [h]

theorem trailingRun_eq_length_takeWhile {x : List Byte} {v : Byte} (hv : x.getLast? = some v) :
    trailingRun x = (x.reverse.takeWhile (· == v)).length := by
  obtain ⟨front, rfl⟩ := List.getLast?_eq_some_iff.1 hv
  simp [trailingRun, Nat.add_comm]

/-- The run at the end reaches `r` when each of the last `r` bytes is the last byte. -/
theorem le_trailingRun_iff {x : List Byte} {v : Byte} (hv : x.getLast? = some v) (r : Nat) :
    r ≤ trailingRun x ↔ ∀ j < r, x.reverse[j]? = some v := by
  rw [trailingRun_eq_length_takeWhile hv, le_length_takeWhile_beq_iff]

theorem one_le_trailingRun {x : List Byte} {v : Byte} (hv : x.getLast? = some v) : 1 ≤ trailingRun x := by
  simp [le_trailingRun_iff hv, ← List.head?_eq_getElem?, hv]

theorem unpadLen_of_getLast? (window : Nat) {x : List Byte} {v : Byte} (hv : x.getLast? = some v) :
    unpadLen window x = if min (trailingRun x) window = v.toNat then x.length - v.toNat else x.length := by
  simp [unpadLen, hv]

/-- A maximal run of equal bytes at the end is the run that UnpadLen counts. -/
theorem trailingRun_eq {x : List Byte} {v : Byte} {run : Nat} (hv : x.getLast? = some v) (hle : run ≤ x.length)
    (hrun : ∀ j < run, x[x.length - 1 - j]? = some v)
    (hmax : run < x.length → x[x.length - 1 - run]? ≠ some v) : trailingRun x = run := by
  have reached : run ≤ trailingRun x :=
    (le_trailingRun_iff hv run).2 fun j hj => by rw [List.getElem?_reverse (by omega), hrun j hj]
  have notPassed : ¬ run + 1 ≤ trailingRun x := fun h => by
    have hnext := (le_trailingRun_iff hv (run + 1)).1 h run (Nat.lt_succ_self run)
    have hlt : run < x.length := by simpa using (List.getElem?_eq_some_iff.1 hnext).1
    rw [List.getElem?_reverse hlt] at hnext
    exact hmax hlt hnext
  omega

/-- Behind `n` padding bytes the run at the end has length `n`, or more when the byte before them is the same. -/
theorem lt_trailingRun_append_replicate_iff (p : List Byte) {n : Nat} (v : Byte) (hn : n ≠ 0) :
    n ≤ trailingRun (p ++ List.replicate n v) ∧
      (n < trailingRun (p ++ List.replicate n v) ↔ p.getLast? = some v) := by
  have hv : (p ++ List.replicate n v).getLast? = some v := by simp [List.getLast?_append, List.getLast?_replicate, hn]
  have inPad : ∀ j < n, (p ++ List.replicate n v).reverse[j]? = some v := fun j hj => by
    simp [List.getElem?_append, hj]
  have beforePad : (p ++ List.replicate n v).reverse[n]? = p.getLast? := by
    simp [List.getElem?_append, ← List.head?_eq_getElem?]
  refine ⟨(le_trailingRun_iff hv n).2 inPad, ?_⟩
  rw [← Nat.succ_le_iff, le_trailingRun_iff hv, Nat.forall_lt_succ_right, beforePad]
  exact and_iff_right inPad

/-- A padding is stripped when the window sees the whole of it and either the byte before it differs or the window ends
there (R231). -/
theorem unpadLen_append_pad (window : Nat) (p : List Byte) {n : Nat} (hn : n ≠ 0) (hn16 : n < 16) :
    unpadLen window (p ++ List.replicate n (BitVec.ofNat 8 n)) =
      if n ≤ window ∧ (p.getLast? ≠ some (BitVec.ofNat 8 n) ∨ window = n) then p.length else p.length + n := by
  have hv : (p ++ List.replicate n (BitVec.ofNat 8 n)).getLast? = some (BitVec.ofNat 8 n) := by
    simp [List.getLast?_append, List.getLast?_replicate, hn]
  have hnat : (BitVec.ofNat 8 n).toNat = n := by simp; omega
  obtain ⟨hle, hlt⟩ := lt_trailingRun_append_replicate_iff p (BitVec.ofNat 8 n) hn
  rw [unpadLen_of_getLast? window hv, hnat, List.length_append, List.length_replicate, Nat.add_sub_cancel]
  simp only [ne_eq, ← hlt]
  exact if_congr (by omega) rfl rfl

end Sys2Proof.Machine
end

section
/-! PROOF. The statement about the unpad heuristic (45_ecb_codec.md R224). -/

namespace Sys2Proof.Claims

open Sys2Proof.Machine

/-- Settles O26: the given run is the one `unpadLen` counts, and each consequence is about that run cut at 16. -/
theorem unpadStripsARunOfItsOwnLength : Obligations.UnpadStripsARunOfItsOwnLength := by
  refine ⟨fun window x v run _ _ _ hlast _ hle hrun hmax => ?_, fun x v hx hlast => ?_⟩
  · have hv : x.getLast? = some v := by rw [List.getLast?_eq_getElem?, hlast]
    rw [unpadLen_of_getLast? window hv, trailingRun_eq hv hle hrun hmax]
  · have hv : x.getLast? = some v := by rw [List.getLast?_eq_getElem?, hlast]
    have hone := one_le_trailingRun hv
    rw [unpadLen_of_getLast? 16 hv]
    refine ⟨fun h => ?_, fun h => ?_, ?_, ?_, ?_, fun h h2 h3 h4 => ?_, fun hall => ?_⟩
    · simp [h]
    · exact if_neg (by omega)
    · split <;> simp
    · split <;> omega
    · split <;> omega
    · have hfour : 4 ≤ trailingRun x := (le_trailingRun_iff hv 4).2 fun j hj => by
        rw [List.getElem?_reverse (by omega)]
        interval_cases j
        · exact hlast
        · exact h2
        · exact h3
        · exact h4
      exact if_neg (by simp [h]; omega)
    · have hv16 : v = 0x10#8 := by simpa [hlast] using hall 0 (by decide)
      have hsixteen : 16 ≤ trailingRun x := (le_trailingRun_iff hv 16).2 fun j hj => by
        rw [List.getElem?_reverse (by omega), hall j hj, hv16]
      simp [hv16, hsixteen]

end Sys2Proof.Claims
end

section
/-! SUPPORT. The ECB codec (45_ecb_codec.md R220 to R230): blocks of 16 bytes in and out of the cipher, the chunks of a
buffer and of an output made block by block, the padded input, and what the three commands leave. -/

namespace Sys2Proof.Machine

/-! ## Blocks of 16 bytes -/

@[simp] theorem loadState_storeState (x : AesState) : loadState (storeState x) = x := rfl

/-- A block loaded into the state and stored again is the same block (43_round_ops.md R170, R171). -/
theorem storeState_loadState {c : List Byte} (hc : c.length = 16) : storeState (loadState c) = c := by
  refine List.ext_getElem hc.symm fun i hi _ => ?_
  have hi16 : i < 16 := hi
  interval_cases i <;> simp [storeState, loadState, stateOf, hc]

/-! ## Chunks -/

theorem chunk_length {x : List Byte} {b : Nat} (h : 16 * (b + 1) ≤ x.length) : (chunk x b).length = 16 := by
  simp [chunk]
  omega

/-- A chunk of a stretch of a buffer. -/
theorem chunk_memBytes (s : State) (a : Nat) {n b : Nat} (h : 16 * (b + 1) ≤ n) :
    chunk (memBytes s a n) b = memBytes s (a + 16 * b) 16 := by
  refine List.ext_getElem ?_ fun i hi hi' => ?_
  · rw [chunk_length (by rwa [memBytes_length]), memBytes_length]
  · simp [chunk, memBytes, Nat.add_assoc]

theorem length_flatMap_range {f : Nat → List Byte} (hf : ∀ b, (f b).length = 16) (n : Nat) :
    ((List.range n).flatMap f).length = 16 * n := by
  simp [List.length_flatMap, hf, List.map_const', Nat.mul_comm]

/-- Chunk `b` of an output made block by block is its block `b`. -/
theorem chunk_flatMap_range {f : Nat → List Byte} (hf : ∀ b, (f b).length = 16) {n b : Nat} (hb : b < n) :
    chunk ((List.range n).flatMap f) b = f b := by
  induction n with
  | zero => omega
  | succ n ih =>
    rw [List.range_succ, List.flatMap_append, List.flatMap_singleton, chunk]
    rcases Nat.lt_succ_iff_lt_or_eq.1 hb with h | rfl
    · rw [List.drop_append_of_le_length (by rw [length_flatMap_range hf]; omega),
        List.take_append_of_le_length (by rw [List.length_drop, length_flatMap_range hf]; omega)]
      exact ih h
    · rw [← length_flatMap_range hf b, List.drop_left, List.take_of_length_le (hf b).le]

/-- The full chunks of a buffer, one after the other. -/
theorem flatMap_chunk_range (x : List Byte) (q : Nat) : (List.range q).flatMap (chunk x) = x.take (16 * q) := by
  induction q with
  | zero => simp
  | succ q ih =>
    rw [List.range_succ, List.flatMap_append, ih, List.flatMap_singleton, chunk, Nat.mul_succ, List.take_add]

/-! ## The padded input -/

/-- The bytes ECB_ENCRYPT enciphers for an input: the input, padded if its length is no multiple of 16
(45_ecb_codec.md R221, R222). -/
def padInput (x : List Byte) : List Byte :=
  if x.length % 16 = 0 then x
  else x ++ List.replicate (16 - x.length % 16) (BitVec.ofNat 8 (16 - x.length % 16))

theorem padInput_length (x : List Byte) : (padInput x).length = 16 * ceilDiv x.length 16 := by
  unfold padInput ceilDiv
  split
  · omega
  · simp; omega

theorem padChunk_length {c : List Byte} (hc : c.length ≤ 16) : (padChunk c).length = 16 := by
  simp [padChunk]
  omega

theorem padChunk_of_length {c : List Byte} (hc : c.length = 16) : padChunk c = c := by simp [padChunk, hc]

/-- The padded chunks of an input, one after the other, are the padded input. -/
theorem flatMap_padChunk (x : List Byte) :
    (List.range (ceilDiv x.length 16)).flatMap (fun b => padChunk (chunk x b)) = padInput x := by
  have full : (List.range (x.length / 16)).flatMap (fun b => padChunk (chunk x b)) = x.take (16 * (x.length / 16)) := by
    rw [← flatMap_chunk_range]
    refine List.flatMap_congr fun b hb => padChunk_of_length (chunk_length ?_)
    have := List.mem_range.1 hb
    omega
  by_cases h : x.length % 16 = 0
  · have hq : ceilDiv x.length 16 = x.length / 16 := by unfold ceilDiv; omega
    rw [hq, full, padInput, if_pos h, List.take_of_length_le (by omega)]
  · have hq : ceilDiv x.length 16 = x.length / 16 + 1 := by unfold ceilDiv; omega
    have hlast : chunk x (x.length / 16) = x.drop (16 * (x.length / 16)) :=
      List.take_of_length_le (by rw [List.length_drop]; omega)
    have hrest : x.length - 16 * (x.length / 16) = x.length % 16 := by omega
    rw [hq, List.range_succ, List.flatMap_append, full, List.flatMap_singleton, hlast, padChunk, List.length_drop,
      hrest, ← List.append_assoc, List.take_append_drop, padInput, if_neg h]

/-- What is stripped of a padded input: the padding, when the window sees the whole of it and either the byte before it
differs or the window ends there (45_ecb_codec.md R231). -/
theorem unpadLen_padInput (window : Nat) {x : List Byte} (h : x.length % 16 ≠ 0) :
    unpadLen window (padInput x) =
      if 16 - x.length % 16 ≤ window ∧
          (x.getLast? ≠ some (BitVec.ofNat 8 (16 - x.length % 16)) ∨ window = 16 - x.length % 16)
      then x.length else 16 * ceilDiv x.length 16 := by
  rw [← padInput_length, padInput, if_neg h, unpadLen_append_pad window x (by omega) (by omega), List.length_append,
    List.length_replicate]

/-- A window of 16 sees every padding and one byte more, so only the last byte of the input decides (R231). -/
theorem unpadLen_sixteen_padInput {x : List Byte} (h : x.length % 16 ≠ 0) :
    unpadLen 16 (padInput x) =
      if x.getLast? = some (BitVec.ofNat 8 (16 - x.length % 16)) then 16 * ceilDiv x.length 16 else x.length := by
  have hlonger : 16 ≠ 16 - x.length % 16 := by omega
  rw [unpadLen_padInput 16 h, ← ite_not]
  exact if_congr (by simp [hlonger]) rfl rfl

/-! ## Encrypting and decrypting bytes -/

theorem chunk_ecbEncryptBytes (sb : Byte → Byte) (w : Vector Word 44) (x : List Byte) {b : Nat}
    (hb : b < ceilDiv x.length 16) :
    chunk (ecbEncryptBytes sb w x) b = storeState (cipher sb w (loadState (padChunk (chunk x b)))) :=
  chunk_flatMap_range (fun _ => rfl) hb

theorem chunk_ecbDecryptBytes (isb : Byte → Byte) (w : Vector Word 44) (x : List Byte) {b : Nat}
    (hb : b < x.length / 16) :
    chunk (ecbDecryptBytes isb w x) b = storeState (invCipher isb w (loadState (chunk x b))) :=
  chunk_flatMap_range (fun _ => rfl) hb

/-- Decrypting what an encrypt wrote gives the padded input (45_ecb_codec.md R231). -/
theorem ecbDecryptBytes_ecbEncryptBytes {sb isb : Byte → Byte} (undo : ∀ y, isb (sb y) = y) (w : Vector Word 44)
    (x : List Byte) : ecbDecryptBytes isb w (ecbEncryptBytes sb w x) = padInput x := by
  rw [← flatMap_padChunk, ecbDecryptBytes, ecbEncryptBytes_length, Nat.mul_div_cancel_left _ (by decide)]
  refine List.flatMap_congr fun b hb => ?_
  have hpad : (padChunk (chunk x b)).length = 16 := padChunk_length (by simp [chunk])
  rw [chunk_ecbEncryptBytes sb w x (List.mem_range.1 hb), loadState_storeState, invCipher_cipher w undo,
    storeState_loadState hpad]

/-! ## The commands -/

theorem exec_ecbEncrypt {s : State} (hk : keyValid s = true) (h1 : 1 ≤ s.len.toNat) (h2 : s.len.toNat ≤ 4096) :
    exec .ecbEncrypt s =
      .next (completed (ecbResult (encryptOutput s) (16 * ceilDiv s.len.toNat 16) s)) := by
  simp [exec, execEcbEncrypt, hk, inputLength, encryptLenOk_iff, h1, h2, complete]

theorem exec_ecbDecrypt {s : State} (hk : keyValid s = true) (h1 : 1 ≤ s.len.toNat) (h2 : s.len.toNat ≤ 4096)
    (h16 : s.len.toNat % 16 = 0) :
    exec .ecbDecrypt s =
      .next (completed (ecbResult (decryptOutput s) (unpadLen s.unpadWindow.val (decryptOutput s)) s)) := by
  simp [exec, execEcbDecrypt, hk, inputLength, decryptLenOk_iff, h1, h2, h16, complete]

theorem exec_ecbDecryptRaw {s : State} (hk : keyValid s = true) (h1 : 1 ≤ s.len.toNat) (h2 : s.len.toNat ≤ 4096)
    (h16 : s.len.toNat % 16 = 0) :
    exec .ecbDecryptRaw s = .next (completed (ecbResult (decryptOutput s) s.len.toNat s)) := by
  simp [exec, execEcbDecryptRaw, hk, inputLength, decryptLenOk_iff, h1, h2, h16, complete]

/-- The output of an ECB command reads back. -/
theorem memBytes_ecbResult (out : List Byte) (n : Nat) (s : State) :
    memBytes (completed (ecbResult out n s)) outBufBase out.length = out :=
  memBytes_storeBytes outBufBase out s

/-- An ECB command leaves every byte outside its output as it was. -/
theorem memByte_ecbResult_of_outside {out : List Byte} {a : Nat} (n : Nat) (s : State)
    (h : a < outBufBase ∨ outBufBase + out.length ≤ a) :
    memByte (completed (ecbResult out n s)) a = memByte s a :=
  (memByte_storeBytes outBufBase out s a).trans (dif_neg (by omega))

/-- Block `b` of the output of an ECB command, read back. -/
theorem memBytes_ecbResult_block {out : List Byte} {b : Nat} (n : Nat) (s : State) (h : 16 * (b + 1) ≤ out.length) :
    memBytes (completed (ecbResult out n s)) (outBufBase + 16 * b) 16 = chunk out b := by
  rw [← chunk_memBytes _ _ h, memBytes_ecbResult]

theorem ecbResult_toNat (out : List Byte) (n : Word) (s : State) :
    ecbResult out n.toNat s = { storeBytes outBufBase out (expandIntoSched s) with outLen := n } := by
  simp [ecbResult]

theorem ecbResult_outLen {out : List Byte} {n : Nat} (s : State) (h : n ≤ 4096) :
    (completed (ecbResult out n s)).outLen.toNat = n :=
  Nat.mod_eq_of_lt (by omega)

end Sys2Proof.Machine

namespace Sys2Proof.Claims

open Sys2Proof.Machine

/-- The statement's padded block is the model's padded chunk (45_ecb_codec.md R220, R221). -/
theorem padChunk_chunk_inputBytes (s : State) {b : Nat} (hb : b < ceilDiv s.len.toNat 16) :
    padChunk (chunk (inputBytes s) b) = paddedBlock s b := by
  have hlen : (chunk (inputBytes s) b).length = min 16 (s.len.toNat - 16 * b) := by simp [chunk, inputBytes_length]
  refine List.ext_getElem ?_ fun j hj hj' => ?_
  · simp [padChunk_length (c := chunk (inputBytes s) b) (by omega), paddedBlock]
  · have hj16 : j < 16 := by simpa [paddedBlock] using hj'
    by_cases h : 16 * b + j < s.len.toNat
    · have hreal : j < (chunk (inputBytes s) b).length := by omega
      simp only [padChunk, List.getElem_append_left hreal]
      simp [chunk, inputBytes, memBytes, paddedBlock, h, Nat.add_assoc]
    · have hpad : (chunk (inputBytes s) b).length ≤ j := by omega
      have hcount : 16 - (chunk (inputBytes s) b).length = 16 * (b + 1) - s.len.toNat := by unfold ceilDiv at hb; omega
      simp only [padChunk, List.getElem_append_right hpad]
      simp [paddedBlock, h, hcount]

end Sys2Proof.Claims
end

section
/-! PROOF. The statements about what the ECB commands write (45_ecb_codec.md R220 to R226). -/

namespace Sys2Proof.Claims

open Sys2Proof.Machine

/-- Settles O24: the output is made block by block, so block `b` reads back as the cipher of padded chunk `b`. -/
theorem ecbEncryptWritesPaddedBlocks : Obligations.EcbEncryptWritesPaddedBlocks := by
  intro s hk h1 h2
  have hceil : ceilDiv s.len.toNat 16 = (s.len.toNat + 15) / 16 := rfl
  have hout : (encryptOutput s).length = 16 * ((s.len.toNat + 15) / 16) := encryptOutput_length s
  refine ⟨_, exec_ecbEncrypt hk h1 h2, rfl, ?_⟩
  rw [ecbResult_outLen s (by omega), hceil]
  refine ⟨rfl, ?_, by omega, fun b hb => ?_, by omega, fun a ha => ?_⟩
  · split <;> omega
  · rw [memBytes_ecbResult_block _ s (by omega), encryptOutput,
      chunk_ecbEncryptBytes _ _ _ (by rwa [inputBytes_length]), padChunk_chunk_inputBytes s hb]
  · exact memByte_ecbResult_of_outside _ s (by rwa [hout])

/-- Settles O25: both decrypts write the same output block by block. -/
theorem ecbDecryptsWriteRawBlocks : Obligations.EcbDecryptsWriteRawBlocks := by
  intro s hk h1 h2 h16
  have hout : (decryptOutput s).length = s.len.toNat := by rw [decryptOutput_length]; omega
  refine ⟨_, _, exec_ecbDecrypt hk h1 h2 h16, exec_ecbDecryptRaw hk h1 h2 h16, rfl, ?_, ?_, fun b hb => ?_,
    fun a ha => ?_⟩
  · rw [ecbResult_toNat]
    rfl
  · rw [ecbResult_outLen s (by have := unpadLen_le s.unpadWindow.val (decryptOutput s); omega), ← hout,
      memBytes_ecbResult]
  · rw [memBytes_ecbResult_block _ s (by omega), decryptOutput,
      chunk_ecbDecryptBytes _ _ _ (by rwa [inputBytes_length]), inputBytes,
      chunk_memBytes s inBufBase (by unfold inputLength; omega)]
  · exact memByte_ecbResult_of_outside _ s (by rwa [hout])

end Sys2Proof.Claims
end

section
/-! PROOF. The statement about the round trip (45_ecb_codec.md R231). -/

namespace Sys2Proof.Claims

open Sys2Proof.Machine

/-- A state with the same key whose input is what another's ECB_ENCRYPT writes decrypts to the padded plaintext. -/
theorem decryptOutput_of_inputBytes_eq {s s2 : State} (hs : tablesReady s) (hs2 : tablesReady s2)
    (hkey : s2.key = s.key) (hinput : inputBytes s2 = encryptOutput s) :
    decryptOutput s2 = padInput (inputBytes s) := by
  have hsbox : sboxAt s2 = sboxAt s :=
    funext fun x => (sboxAt_of_tablesReady hs2 x).trans (sboxAt_of_tablesReady hs x).symm
  have undo : ∀ y, invSboxAt s2 (sboxAt s y) = y := fun y => by rw [← hsbox, invSboxAt_sboxAt hs2]
  rw [decryptOutput, hinput, encryptOutput, hsbox, hkey, ecbDecryptBytes_ecbEncryptBytes undo]

/-- Settles O28: the decrypts write the padded plaintext, whose run at the end is the padding's, or longer. -/
theorem ecbRoundTripGivesThePaddedPlaintext : Obligations.EcbRoundTripGivesThePaddedPlaintext := by
  intro s t s2 hs hk h1 h2 ht hs2 hk2 hkey hlen hin
  cases (exec_ecbEncrypt hk h1 h2).symm.trans ht
  have hceil : ceilDiv s.len.toNat 16 = (s.len.toNat + 15) / 16 := rfl
  have hlen2 : s2.len.toNat = 16 * ceilDiv s.len.toNat 16 := by rw [hlen, ecbResult_outLen s (by omega)]
  have hinput : inputBytes s2 = encryptOutput s := by
    rw [inputBytes, inputLength, hin, ← hlen, hlen2, ← encryptOutput_length, memBytes_ecbResult]
  have hout := decryptOutput_of_inputBytes_eq hs hs2 hkey hinput
  have houtLength : (decryptOutput s2).length = s2.len.toNat := by rw [decryptOutput_length]; omega
  refine ⟨inputBytes s, rfl, _, rfl, ⟨_, exec_ecbDecryptRaw hk2 (by omega) (by omega) (by omega), ?_⟩,
    _, exec_ecbDecrypt hk2 (by omega) (by omega) (by omega), _, rfl, ?_⟩
  · rw [ecbResult_outLen s2 (by omega), ← houtLength, memBytes_ecbResult, hout, padInput, inputBytes_length]
  · rw [ecbResult_outLen s2 (by have := unpadLen_le s2.unpadWindow.val (decryptOutput s2); omega), hout, ← hceil]
    have hn := inputBytes_length s
    refine ⟨fun hw hpart => ?_, fun _ hpart => ?_, fun haligned => ?_⟩
    · have hlonger : 16 * ceilDiv s.len.toNat 16 ≠ s.len.toNat := by omega
      rw [hw, unpadLen_sixteen_padInput (by rwa [hn]), hn]
      exact ⟨by simp [hlonger], fun hlast => if_pos hlast⟩
    · rw [unpadLen_padInput _ (by rwa [hn]), hn]
    · rw [padInput, if_pos (by rwa [hn])]

end Sys2Proof.Claims
end

section
/-! SUPPORT. When ERR is set, which completions set it, and whose errors clear OUT_LEN (10_state.md R34,
60_exceptions.md R252). -/

namespace Sys2Proof.Machine

/-- ERR says that the completion code is an error's (10_state.md R34). -/
theorem errFlag_iff (s : State) : errFlag s = true ↔ s.errCode ≠ .ok := by
  unfold errFlag
  cases s.errCode <;> decide

theorem isEcbOp_iff (op : Byte) : isEcbOp op = true ↔ op.toNat ∈ [0x60, 0x61, 0x62] := by
  simp [isEcbOp, ← BitVec.toNat_inj, or_assoc]

/-- A completion that leaves an error code is the error completion of that code. -/
theorem Completion.eq_failed {i : Instr} {s t : State} (h : Completion i s t) (he : t.errCode ≠ .ok) :
    t = failed (opcodeOf i) t.errCode s := by
  cases h with
  | error code hc => rfl
  | result v hf => exact absurd rfl he
  | schedule hf hk => exact absurd rfl he
  | block x hf => exact absurd rfl he
  | ecb out n hf hk hout hn => exact absurd rfl he

end Sys2Proof.Machine

namespace Sys2Proof.Claims

open Sys2Proof.Machine

/-- The commands whose errors clear OUT_LEN are those of family 6 (30_encoding.md R93). -/
theorem isEcbOp_opcodeOf_iff (i : Instr) : isEcbOp (opcodeOf i) = true ↔ family i = 6 := by
  cases i <;> simp [isEcbOp, family, opcodeOf]

/-- An error completion is the statements' `errorEnd`, after OUT_LEN is cleared for the ECB opcodes. -/
theorem failed_eq_errorEnd (op : Byte) (code : ErrCode) (s : State) :
    failed op code s = errorEnd code { s with outLen := if isEcbOp op then 0#32 else s.outLen } := rfl

end Sys2Proof.Claims
end

section
/-! PROOF. The statement about what an error completion changes (60_exceptions.md R252). -/

namespace Sys2Proof.Claims

open Sys2Proof.Machine

/-- Settles O37: of the ways a command completes only the error leaves a code other than 0, and a word that is not valid
ends in the same error completion, with the low byte of CMD as its opcode. -/
theorem errorsChangeNothingElse : Obligations.ErrorsChangeNothingElse := by
  refine ⟨fun i s t h he => ⟨(errFlag_iff t).2 he, ?_⟩, fun s rest ht hr hb hv => ?_⟩
  · calc t = failed (opcodeOf i) t.errCode s := (exec_completion h).eq_failed he
      _ = _ := by simp only [failed_eq_errorEnd, isEcbOp_opcodeOf_iff]
  · rw [step_of_invalidCommand ht hr hb hv, failed_eq_errorEnd]
    simp only [isEcbOp_iff, opField_toNat]

end Sys2Proof.Claims
end

section
/-! SUPPORT. When STATUS reads 0 (10_state.md R31). -/

namespace Sys2Proof.Machine

/-- STATUS reads 0 when no field of it is set; ERR is the code's, so ERR_CODE stands for it (10_state.md R31, R34). -/
theorem statusWord_eq_zero {s : State} (hcode : s.errCode = .ok) (hsched : s.schedValid = false)
    (hkey : keyValid s = false) (hready : s.sboxReady = false) (hover : s.overrun = false) (hdone : s.done = false)
    (hbusy : s.busy = false) : statusWord s = 0#32 := by
  have herr : errFlag s = false := by simpa [hcode] using errFlag_iff s
  simp [statusWord, errNumber, hcode, hsched, hkey, hready, hover, herr, hdone, hbusy]

end Sys2Proof.Machine
end

section
/-! PROOF. The statement about the reset state (70_reset_and_hazards.md R282). -/

namespace Sys2Proof.Claims

open Sys2Proof.Machine

/-- Settles O1: the registers are the fields of `State.reset`, KWM is 0 there, and STATUS and irq follow from them. -/
theorem resetIsMaskedIdleAndKeyless : Obligations.ResetIsMaskedIdleAndKeyless := by
  have hkey : keyValid State.reset = false := by simp [keyValid, State.reset]
  have hstatus : statusWord State.reset = 0#32 := statusWord_eq_zero rfl rfl hkey rfl rfl rfl rfl
  have hirq : irq State.reset = false := by simp [irq, State.reset]
  exact ⟨rfl, rfl, rfl, hkey, rfl, rfl, hstatus, hirq⟩

end Sys2Proof.Claims
end

section
/-! PROOF. The statement that the decoder undoes the encoder (30_encoding.md R90 to R93). -/

namespace Sys2Proof.Claims

/-- Settles O30: the decoder answers a well-formed command at its own encoding. -/
theorem decodeOfEncodeIsTheCommand : Obligations.DecodeOfEncodeIsTheCommand := fun _ hw => decode_of_encode hw rfl

end Sys2Proof.Claims
end

section
/-! SUPPORT. What each kind of move leaves of the invariant of the block. The invariant speaks of no response, agenda,
draw, fault record or result register, so a move that changes only these keeps it by definition. -/

namespace Sys2Proof.Machine

/-! ## The host -/

/-- An accepted write keeps the invariant: a KEY write gives up the schedule, an issue clears DONE, and an IN_BUF write
stores inside the buffers. -/
theorem BlockInv.after_writeTarget {s : State} (h : BlockInv s) (v : Word) (τ : Target) :
    BlockInv (writeTarget v s τ) := by
  obtain ⟨hmem, htables, hsched, hpending, hout⟩ := h
  cases τ with
  | cmd => exact ⟨hmem, htables, hsched, fun _ => rfl, hout⟩
  | status =>
    exact ⟨hmem, htables, hsched, fun hb => by simp [writeTarget, hpending hb], hout⟩
  | key k => exact ⟨hmem, htables, fun hv => absurd hv Bool.false_ne_true, hpending, hout⟩
  | inBuf k =>
    have hk := k.isLt
    refine ⟨Memory.wf_writeBytes hmem _ _ ?_, htables, hsched, hpending, hout⟩
    simp only [inBufWordAddr, inBufBase, List.length_cons, List.length_nil]
    omega
  | _ => exact ⟨hmem, htables, hsched, hpending, hout⟩

/-- An access of the host keeps the invariant. -/
theorem Served.keeps_blockInv {r : Request} {s t : State} (h : Served r s t) (hi : BlockInv s) : BlockInv t := by
  cases h with
  | written hl hw hd => exact hi.after_writeTarget r.wdata (targetOf r.addr)
  | _ => exact hi

/-! ## The engine -/

/-- A success completion keeps the invariant: no command is pending after it. -/
theorem BlockInv.after_completed {s : State} (h : BlockInv s) : BlockInv (completed s) := by
  obtain ⟨hmem, htables, hsched, -, hout⟩ := h
  exact ⟨hmem, htables, hsched, fun hb => absurd hb Bool.false_ne_true, hout⟩

/-- An error completion keeps the invariant: OUT_LEN stays or is cleared. -/
theorem BlockInv.after_failed {s : State} (h : BlockInv s) (op : Byte) (code : ErrCode) :
    BlockInv (failed op code s) := by
  obtain ⟨hmem, htables, hsched, -, hout⟩ := h
  refine ⟨hmem, htables, hsched, fun hb => absurd hb Bool.false_ne_true, ?_⟩
  rw [failed_outLen]
  split
  · exact Nat.zero_le _
  · exact hout

/-- With the tables and a key, the schedule written is the one of the current key (42_key_schedule.md R157). -/
theorem BlockInv.after_expandIntoSched {s : State} (h : BlockInv s) (hr : s.sboxReady = true) (hk : keyValid s = true) :
    BlockInv (expandIntoSched s) := by
  obtain ⟨hmem, htables, -, hpending, hout⟩ := h
  exact ⟨hmem, htables, fun _ => ⟨hr, rfl, hk, rfl⟩, hpending, hout⟩

/-- What an ECB command leaves keeps the invariant, when its output fits OUT_BUF. -/
theorem BlockInv.after_ecbResult {s : State} (h : BlockInv s) (hr : s.sboxReady = true) (hk : keyValid s = true)
    {out : List Byte} {n : Nat} (hlen : out.length ≤ 4096) (hn : n ≤ 4096) : BlockInv (ecbResult out n s) := by
  obtain ⟨hmem, htables, hsched, hpending, -⟩ := h.after_expandIntoSched hr hk
  refine ⟨Memory.wf_writeBytes hmem _ _ (by unfold outBufBase; omega), htables, hsched, hpending, ?_⟩
  exact (Nat.mod_le n _).trans hn

/-- A command run with the tables generated keeps the invariant. -/
theorem Completion.keeps_blockInv {i : Instr} {s t : State} (h : Completion i s t) (hi : BlockInv s)
    (hr : s.sboxReady = true) : BlockInv t := by
  cases h with
  | error code hc => exact hi.after_failed _ code
  | result v hf => exact BlockInv.after_completed (s := { s with res := v }) hi
  | schedule hf hk => exact (hi.after_expandIntoSched hr hk).after_completed
  | block x hf => exact BlockInv.after_completed (s := storeBlock x s) hi
  | ecb out n hf hk hout hn => exact (hi.after_ecbResult hr hk hout hn).after_completed

/-- The generation step keeps the invariant: before it no schedule was valid, and after it the tables are in place. -/
theorem BlockInv.after_generate {s : State} (h : BlockInv s) (hr : s.sboxReady = false) : BlockInv (generate s) := by
  obtain ⟨hmem, -, hsched, hpending, hout⟩ := h
  obtain ⟨-, htables⟩ := Claims.tablesReady_generate s
  refine ⟨hmem, htables, fun hv => ?_, hpending, hout⟩
  obtain ⟨hready, -⟩ := hsched hv
  exact absurd hready (by simp [hr])

/-! ## The reset input -/

/-- A block with no stored byte, no table, no valid schedule, no pending command and OUT_LEN = 0 meets the invariant. -/
theorem blockInv_of_blank {s : State} (hmem : s.mem = []) (hready : s.sboxReady = false) (hvalid : s.schedValid = false)
    (hbusy : s.busy = false) (hout : s.outLen = 0#32) : BlockInv s :=
  ⟨hmem ▸ Memory.wf_reset, by simp [TablesGenerated, hready], by simp [ScheduleCurrent, hvalid],
    by simp [PendingNotDone, hbusy], by simp [hout]⟩

end Sys2Proof.Machine
end

section
/-! PROOF. The statements about the invariant of the block (10_state.md R31, R38, R42, R43; 70_reset_and_hazards.md
R280). -/

namespace Sys2Proof.Claims

open Sys2Proof.Machine

/-- Settles O40: the reset state has no stored byte and no flag set. -/
theorem resetMeetsTheInvariant : Obligations.ResetMeetsTheInvariant :=
  blockInv_of_blank rfl rfl rfl rfl rfl

/-- Settles O41: each of the step's moves keeps the invariant. -/
theorem stepKeepsTheInvariant : Obligations.StepKeepsTheInvariant := by
  intro s t hi h
  have inv : ∀ rest, BlockInv { s with agenda := rest } := fun _ => hi
  cases step_move h with
  | generates rest he hr => exact (inv rest).after_generate hr
  | waits rest he hr hb => exact inv rest
  | runs rest i t he hr hb hd hx => exact (exec_completion hx).keeps_blockInv (inv rest) hr
  | refuses rest why he hr hb hd => exact (inv rest).after_failed _ _
  | host r rest ha => exact (hostAccess_served r _).keeps_blockInv (inv rest)
  | resets rest ha => exact blockInv_of_blank rfl rfl rfl rfl rfl

end Sys2Proof.Claims
end

section
/-! SUPPORT. Sequences of round commands as one operation on the block (44_block_cipher.md R200, R201). -/

namespace Sys2Proof.Claims

open Sys2Proof.Machine

/-- The round command of a round index. -/
def addRoundKeyCommand (r : Fin 11) : Instr := .addRoundKey (BitVec.ofNat 4 r.val)

theorem addRoundKeyCommand_actsOnBlock {s : State} (hv : s.schedValid = true) (r : Fin 11) :
    ActsOnBlock s (addRoundKeyCommand r) (addRoundKey (roundKey (schedWords s) r)) := by
  have hr : (BitVec.ofNat 4 r.val).toNat = r.val := by rw [BitVec.toNat_ofNat]; omega
  have acts := addRoundKey_actsOnBlock (k := BitVec.ofNat 4 r.val) (by omega) hv
  simpa only [addRoundKeyCommand, hr, Fin.eta] using acts

/-- The commands `is`, run in what a round command on `s` leaves, are the operation `f` on the block. -/
def RunsOnBlock (s : State) (is : List Instr) (f : AesState → AesState) : Prop :=
  ∀ x, runAll is (completed (storeBlock x s)) = .next (completed (storeBlock (f x) s))

theorem runAll_append (is js : List Instr) {s t : State} (h : runAll is s = .next t) :
    runAll (is ++ js) s = runAll js t := by
  induction is generalizing s with
  | nil =>
    cases h
    rfl
  | cons i is ih =>
    obtain ⟨u, hu, -⟩ := exec_completes i s
    simp only [List.cons_append, runAll, hu] at h ⊢
    exact ih h

section Sequence

variable {s : State}

theorem RunsOnBlock.nil : RunsOnBlock s [] id := fun _ => rfl

theorem RunsOnBlock.cons {i : Instr} {is : List Instr} {f g : AesState → AesState} (hi : ActsOnBlock s i f)
    (his : RunsOnBlock s is g) : RunsOnBlock s (i :: is) (g ∘ f) := fun x => by
  simp only [runAll, hi.2, onBlock, complete, loadBlock_completed, loadBlock_storeBlock]
  exact his (f x)

theorem RunsOnBlock.append {is js : List Instr} {f g : AesState → AesState} (his : RunsOnBlock s is f)
    (hjs : RunsOnBlock s js g) : RunsOnBlock s (is ++ js) (g ∘ f) := fun x => by
  rw [runAll_append is js (his x), hjs, Function.comp_apply]

/-- Rounds run one after the other are the fold of the round operation. -/
theorem RunsOnBlock.rounds {body : Fin 11 → List Instr} {f : AesState → Fin 11 → AesState}
    (h : ∀ r, RunsOnBlock s (body r) fun x => f x r) (rs : List (Fin 11)) :
    RunsOnBlock s (rs.flatMap body) fun x => rs.foldl f x := by
  induction rs with
  | nil => exact .nil
  | cons r rs ih =>
    intro x
    rw [List.flatMap_cons, runAll_append _ _ (h r x)]
    exact ih (f x r)

/-- A sequence that begins in `s` itself with a round command. -/
theorem runAll_of_runsOnBlock {i : Instr} {is : List Instr} {f g : AesState → AesState} (hi : ActsOnBlock s i f)
    (his : RunsOnBlock s is g) : runAll (i :: is) s = onBlock (g ∘ f) s := by
  simp only [runAll, hi.1, onBlock, complete]
  exact his _

end Sequence

/-! ## The pipelines -/

/-- The main rounds' commands are those of the model's main rounds, in order. -/
theorem encryptRounds_eq : encryptRounds =
    mainRounds.flatMap fun r => [.subBytes, .shiftRows, .mixColumns, addRoundKeyCommand r] := rfl

theorem decryptRounds_eq : decryptRounds =
    mainRounds.reverse.flatMap fun r => [.invShiftRows, .invSubBytes, addRoundKeyCommand r, .invMixColumns] := rfl

section Pipelines

variable {s : State} (hv : s.schedValid = true)
include hv

theorem encryptRounds_runsOnBlock : RunsOnBlock s encryptRounds fun x =>
    mainRounds.foldl (cipherRound (sboxAt s) (schedWords s)) x := by
  rw [encryptRounds_eq]
  exact .rounds (fun r => .cons (subBytes_actsOnBlock s) <| .cons (shiftRows_actsOnBlock s) <|
    .cons (mixColumns_actsOnBlock s) <| .cons (addRoundKeyCommand_actsOnBlock hv r) .nil) _

theorem decryptRounds_runsOnBlock : RunsOnBlock s decryptRounds fun x =>
    mainRounds.reverse.foldl (invCipherRound (invSboxAt s) (schedWords s)) x := by
  rw [decryptRounds_eq]
  exact .rounds (fun r => .cons (invShiftRows_actsOnBlock s) <| .cons (invSubBytes_actsOnBlock s) <|
    .cons (addRoundKeyCommand_actsOnBlock hv r) <| .cons (invMixColumns_actsOnBlock s) .nil) _

/-- The round commands of R200 are the cipher on the block. -/
theorem runAll_encryptPipeline :
    runAll (addRoundKeyCommand 0 :: (encryptRounds ++ [.subBytes, .shiftRows, addRoundKeyCommand 10])) s =
      onBlock (cipher (sboxAt s) (schedWords s)) s := by
  have last : RunsOnBlock s [.subBytes, .shiftRows, addRoundKeyCommand 10] _ :=
    .cons (subBytes_actsOnBlock s) <| .cons (shiftRows_actsOnBlock s) <|
      .cons (addRoundKeyCommand_actsOnBlock hv 10) .nil
  rw [runAll_of_runsOnBlock (addRoundKeyCommand_actsOnBlock hv 0) ((encryptRounds_runsOnBlock hv).append last)]
  rfl

/-- The round commands of R201 are the inverse cipher on the block. -/
theorem runAll_decryptPipeline :
    runAll (addRoundKeyCommand 10 :: (decryptRounds ++ [.invShiftRows, .invSubBytes, addRoundKeyCommand 0])) s =
      onBlock (invCipher (invSboxAt s) (schedWords s)) s := by
  have last : RunsOnBlock s [.invShiftRows, .invSubBytes, addRoundKeyCommand 0] _ :=
    .cons (invShiftRows_actsOnBlock s) <| .cons (invSubBytes_actsOnBlock s) <|
      .cons (addRoundKeyCommand_actsOnBlock hv 0) .nil
  rw [runAll_of_runsOnBlock (addRoundKeyCommand_actsOnBlock hv 10) ((decryptRounds_runsOnBlock hv).append last)]
  rfl

end Pipelines

end Sys2Proof.Claims
end

section
/-! PROOF. The statements about ADD_ROUND_KEY and the block commands as commands (43_round_ops.md section 3,
44_block_cipher.md R200, R201, R204, R205). -/

namespace Sys2Proof.Claims

open Sys2Proof.Machine

/-- Settles O19: adding a round key word by word is the exclusive OR of the registers, and the index is checked before
the schedule. -/
theorem addRoundKeyAddsTheSlice : Obligations.AddRoundKeyAddsTheSlice := by
  refine ⟨fun s k hk hv => ?_, fun s k hk hv => ?_, fun s k hk => ?_⟩
  · rw [exec_addRoundKey hk hv]
    simp only [onBlock, complete, storeBlock, addRoundKey, loadBlock, roundKey, wordOfAes_coefAdd,
      wordOfAes_aesOfWord]
    rfl
  · rw [exec, execAddRoundKey, dif_pos hk, if_neg (by simp [hv])]
    rfl
  · rw [exec, execAddRoundKey, dif_neg (by omega)]
    rfl

/-- Settles O21: each sequence of round commands is its pipeline on the block, and so is the block command. -/
theorem blockCommandsAreTheirRounds : Obligations.BlockCommandsAreTheirRounds := fun _ hv =>
  ⟨⟨_, (encryptBlock_actsOnBlock hv).1, rfl, runAll_encryptPipeline hv⟩,
    _, (decryptBlock_actsOnBlock hv).1, rfl, runAll_decryptPipeline hv⟩

/-- Settles O23: the check of SCHED_VALID comes first, and OUT_LEN is cleared by the ECB opcodes' errors only. -/
theorem blockCommandsNeedASchedule : Obligations.BlockCommandsNeedASchedule := by
  intro s hv
  have hn : ¬ s.schedValid = true := by simp [hv]
  exact ⟨if_neg hn, if_neg hn⟩

end Sys2Proof.Claims
end

section
/-! SUPPORT. Two states with the same ECB input (20_memory.md R71, 45_ecb_codec.md section 2): their ECB commands
complete alike, with the same error or the same output. -/

namespace Sys2Proof.Machine

/-- A byte of the output of an ECB command. -/
theorem memByte_ecbResult {out : List Byte} {j : Nat} (n : Nat) (s : State) (h : j < out.length) :
    memByte (completed (ecbResult out n s)) (outBufBase + j) = out[j] := by
  refine (memByte_storeBytes outBufBase out (expandIntoSched s) _).trans ?_
  rw [dif_pos (by omega)]
  simp only [Nat.add_sub_cancel_left]

/-- What an ECB command reads: the key and its mask, LEN, the window, the tables and `IN_BUF[0..LEN)`. -/
structure SameEcbInput (s s' : State) : Prop where
  key : s'.key = s.key
  kwm : s'.kwm = s.kwm
  len : s'.len = s.len
  window : s'.unpadWindow = s.unpadWindow
  sbox : sboxAt s' = sboxAt s
  invSbox : invSboxAt s' = invSboxAt s
  bytes : ∀ j < s.len.toNat, memByte s' (inBufBase + j) = memByte s (inBufBase + j)

section Same

variable {s s' : State} (h : SameEcbInput s s')
include h

theorem SameEcbInput.keyValid_eq : keyValid s' = keyValid s := by rw [keyValid, keyValid, h.kwm]

theorem SameEcbInput.inputLength_eq : inputLength s' = inputLength s := by rw [inputLength, inputLength, h.len]

theorem SameEcbInput.inputBytes_eq : inputBytes s' = inputBytes s := by
  rw [inputBytes, inputBytes, h.inputLength_eq]
  exact List.map_congr_left fun j hj => h.bytes j (List.mem_range.1 hj)

theorem SameEcbInput.encryptOutput_eq : encryptOutput s' = encryptOutput s := by
  rw [encryptOutput, encryptOutput, h.sbox, h.key, h.inputBytes_eq]

theorem SameEcbInput.decryptOutput_eq : decryptOutput s' = decryptOutput s := by
  rw [decryptOutput, decryptOutput, h.sbox, h.invSbox, h.key, h.inputBytes_eq]

end Same

/-- Two completions of an ECB command that agree: on the error, or on the output and its length. -/
inductive EcbAlike (s s' : State) : State → State → Prop where
  | error (op : Byte) (code : ErrCode) : isEcbOp op = true → code ≠ .ok →
      EcbAlike s s' (failed op code s) (failed op code s')
  | output (out : List Byte) (n : Nat) : out.length = 16 * ceilDiv s.len.toNat 16 →
      EcbAlike s s' (completed (ecbResult out n s)) (completed (ecbResult out n s'))

theorem decryptOutput_length_of_lenOk {s : State} (h : decryptLenOk (inputLength s) = true) :
    (decryptOutput s).length = 16 * ceilDiv s.len.toNat 16 := by
  obtain ⟨-, -, h16⟩ := (decryptLenOk_iff _).1 h
  unfold inputLength at h16
  rw [decryptOutput_length, ceilDiv]
  omega

/-- From the same input an ECB command completes alike. -/
theorem SameEcbInput.exec_alike {s s' : State} (h : SameEcbInput s s') {i : Instr} (hi : isEcbOp (opcodeOf i) = true) :
    ∃ t t', exec i s = .next t ∧ exec i s' = .next t' ∧ EcbAlike s s' t t' := by
  cases i with
  | ecbEncrypt =>
    simp only [exec, execEcbEncrypt, h.keyValid_eq, h.inputLength_eq, h.encryptOutput_eq]
    split
    · split
      · exact ⟨_, _, rfl, rfl, .output _ _ (encryptOutput_length s)⟩
      · exact ⟨_, _, rfl, rfl, .error _ _ rfl (by decide)⟩
    · exact ⟨_, _, rfl, rfl, .error _ _ rfl (by decide)⟩
  | ecbDecrypt =>
    simp only [exec, execEcbDecrypt, h.keyValid_eq, h.inputLength_eq, h.decryptOutput_eq, h.window]
    split
    · split
      next hlen => exact ⟨_, _, rfl, rfl, .output _ _ (decryptOutput_length_of_lenOk hlen)⟩
      · exact ⟨_, _, rfl, rfl, .error _ _ rfl (by decide)⟩
    · exact ⟨_, _, rfl, rfl, .error _ _ rfl (by decide)⟩
  | ecbDecryptRaw =>
    simp only [exec, execEcbDecryptRaw, h.keyValid_eq, h.inputLength_eq, h.decryptOutput_eq]
    split
    · split
      next hlen => exact ⟨_, _, rfl, rfl, .output _ _ (decryptOutput_length_of_lenOk hlen)⟩
      · exact ⟨_, _, rfl, rfl, .error _ _ rfl (by decide)⟩
    · exact ⟨_, _, rfl, rfl, .error _ _ rfl (by decide)⟩
  | _ => simp [isEcbOp, opcodeOf] at hi

end Sys2Proof.Machine
end

section
/-! PROOF. The statements about what the ECB commands check and read (45_ecb_codec.md section 2, 20_memory.md
section 3). -/

namespace Sys2Proof.Claims

open Sys2Proof.Machine

/-- Settles O27: the key is checked before LEN, and an ECB opcode's error clears OUT_LEN. -/
theorem ecbCommandsCheckKeyThenLength : Obligations.EcbCommandsCheckKeyThenLength := by
  refine ⟨fun s hk => ⟨exec_noKey (by simp) hk, exec_noKey (by simp) hk, exec_noKey (by simp) hk⟩,
    fun s hk hlen => ?_, fun s hk hlen => ?_⟩
  · have hbad : ¬ encryptLenOk (inputLength s) = true := by
      rw [encryptLenOk_iff, inputLength]
      rcases hlen with hlen | hlen
      · simp [hlen]
      · omega
    rw [exec, execEcbEncrypt, if_pos hk, if_neg hbad]
    rfl
  · have hbad : ¬ decryptLenOk (inputLength s) = true := by
      rw [decryptLenOk_iff, inputLength]
      rcases hlen with hlen | hlen
      · simp [hlen]
      · omega
    rw [exec, execEcbDecrypt, exec, execEcbDecryptRaw, if_pos hk, if_neg hbad, if_pos hk, if_neg hbad]
    exact ⟨rfl, rfl⟩

/-- Settles O29: the two runs complete alike, with the same error or with the same output. -/
theorem ecbCommandsReadOnlyTheirInput : Obligations.EcbCommandsReadOnlyTheirInput := by
  intro i s s' t t' hi hkey hkwm hlen hwindow htables hbytes ht ht'
  have same : SameEcbInput s s' :=
    ⟨hkey, hkwm, hlen, hwindow, funext fun x => (htables x).1, funext fun x => (htables x).2, hbytes⟩
  obtain ⟨u, u', hu, hu', alike⟩ := same.exec_alike ((isEcbOp_opcodeOf_iff i).2 hi)
  cases hu.symm.trans ht
  cases hu'.symm.trans ht'
  cases alike with
  | error op code hop hcode =>
    exact ⟨by simp [hop], rfl, fun hok => absurd hok hcode⟩
  | output out n hout =>
    refine ⟨rfl, rfl, fun _ => ⟨?_, fun j hj => ?_⟩⟩
    · show expandKey (sboxAt s') s'.key = expandKey (sboxAt s) s.key
      rw [same.sbox, same.key]
    · have hj' : j < out.length := hout ▸ hj
      rw [memByte_ecbResult n s hj', memByte_ecbResult n s' hj']

end Sys2Proof.Claims
end

section
/-! PROOF. The statements about every command's completion and frame (10_state.md section 2, 60_exceptions.md R251), and
about KEY_EXPAND (42_key_schedule.md R157). -/

namespace Sys2Proof.Claims

open Sys2Proof.Machine

/-- Settles O15: the schedule is a function of KEY and SBOX, which the expansion leaves as they were. -/
theorem keyExpandFillsTheSchedule : Obligations.KeyExpandFillsTheSchedule := by
  refine ⟨rfl, fun s hk => ⟨exec_keyExpand hk, ?_, schedWords_withSchedule s, fun k => ?_⟩, fun s hk => ?_⟩
  · exact exec_keyExpand (s := successEnd (withSchedule s)) hk
  · exact expandKey_getElem_of_lt_four (sboxAt s) s.key k.val k.isLt
  · exact exec_noKey (by simp) hk

/-- Settles O36: every completion clears BUSY and sets DONE, and every move of the agents is a next state. -/
theorem everyCommandCompletes : Obligations.EveryCommandCompletes := by
  refine ⟨fun i s => ?_, fun s => ?_⟩
  · obtain ⟨t, ht, hc⟩ := exec_completes i s
    refine ⟨t, ht, hc.leaves.busy, hc.leaves.done, ?_⟩
    rw [← Bool.not_eq_true, errFlag_iff, not_not]
  · obtain ⟨t, ht, -⟩ := step_moves s
    exact ⟨t, ht⟩

/-- Settles O38: none of the completions writes one of these fields. -/
theorem commandsKeepTheirOperands : Obligations.CommandsKeepTheirOperands := by
  intro i s t h
  cases exec_completion h with
  | error code hc => and_intros <;> rfl
  | result v hf => and_intros <;> rfl
  | schedule hf hk => and_intros <;> rfl
  | block x hf => and_intros <;> rfl
  | ecb out n hf hk hout hn => and_intros <;> rfl

/-- Settles O39: each completion's family is the one that may write what it writes, and an error writes OUT_LEN for the
ECB commands only. -/
theorem commandsWriteOnlyTheirTargets : Obligations.CommandsWriteOnlyTheirTargets := by
  intro i s t h
  cases exec_completion h with
  | error code hc =>
    refine ⟨fun _ => rfl, fun _ => rfl, fun _ => ⟨rfl, rfl, rfl⟩, fun h6 => ⟨?_, rfl⟩, fun _ _ => rfl⟩
    rw [failed_outLen, if_neg (mt (isEcbOp_opcodeOf_iff i).1 h6)]
  | result v hf =>
    exact ⟨fun ⟨h1, h2⟩ => (hf.elim h1 h2).elim, fun _ => rfl, fun _ => ⟨rfl, rfl, rfl⟩, fun _ => ⟨rfl, rfl⟩,
      fun _ _ => rfl⟩
  | schedule hf hk =>
    exact ⟨fun _ => rfl, fun _ => rfl, fun ⟨h3, _⟩ => (h3 hf).elim, fun _ => ⟨rfl, rfl⟩, fun _ _ => rfl⟩
  | block x hf =>
    exact ⟨fun _ => rfl, fun ⟨h4, h5⟩ => (hf.elim h4 h5).elim, fun _ => ⟨rfl, rfl, rfl⟩, fun _ => ⟨rfl, rfl⟩,
      fun _ _ => rfl⟩
  | ecb out n hf hk hout hn =>
    refine ⟨fun _ => rfl, fun _ => rfl, fun ⟨_, h6⟩ => (h6 hf).elim, fun h6 => (h6 hf).elim, fun a ha => ?_⟩
    exact memByte_ecbResult_of_outside n s (by unfold outBufBase at *; omega)

end Sys2Proof.Claims
end

section
/-! SUPPORT. Accesses of the host while BUSY = 0 (20_memory.md R62 to R65): reads that are not draws, and a word stored
in a buffer. -/

namespace Sys2Proof.Machine

/-- With BUSY = 0 a read is a draw only in a table window (R139). -/
theorem readIsDraw_of_idle {s : State} (hb : s.busy = false) {τ : Target} (hτ : isTableWindow τ = false) :
    readIsDraw s τ = false := by
  simp [readIsDraw, hb, hτ]

/-- The bytes a stored word leaves, most significant first, and every other byte as it was (R62). -/
theorem memByte_storeWord (a : Nat) (v : Word) (s : State) :
    (∀ j < 4, memByte (storeWord a v s) (a + j) = laneByte v j) ∧
      ∀ b, b < a ∨ a + 4 ≤ b → memByte (storeWord a v s) b = memByte s b := by
  refine ⟨fun j hj => ?_, fun b hb => ?_⟩
  · rw [storeWord, memByte_storeBytes, dif_pos (by simp; omega)]
    match j, hj with
    | 0, _ | 1, _ | 2, _ | 3, _ => simp
  · rw [storeWord, memByte_storeBytes, dif_neg (by simp; omega)]

/-- A stored word reads back (R62). -/
theorem memWord_storeWord (a : Nat) (v : Word) (s : State) : memWord (storeWord a v s) a = v := by
  obtain ⟨bytes, -⟩ := memByte_storeWord a v s
  have first : memByte (storeWord a v s) a = laneByte v 0 := bytes 0 (by decide)
  rw [memWord, first, bytes 1 (by decide), bytes 2 (by decide), bytes 3 (by decide)]
  exact wordOfAes_aesOfWord v

end Sys2Proof.Machine

namespace Sys2Proof.Claims

open Sys2Proof.Machine

theorem targetOf_len (a : BitVec 14) (h : a.toNat = 0x00C) : targetOf a = .len := by
  obtain ⟨-, -, -, hlen, -⟩ := targetOf_register a
  exact hlen h

theorem targetOf_outLen (a : BitVec 14) (h : a.toNat = 0x010) : targetOf a = .outLen := by
  obtain ⟨-, -, -, -, houtLen, -⟩ := targetOf_register a
  exact houtLen h

theorem targetOf_opa (a : BitVec 14) (h : a.toNat = 0x014) : targetOf a = .opa := by
  obtain ⟨-, -, -, -, -, hopa, -⟩ := targetOf_register a
  exact hopa h

theorem targetOf_opb (a : BitVec 14) (h : a.toNat = 0x018) : targetOf a = .opb := by
  obtain ⟨-, -, -, -, -, -, hopb, -⟩ := targetOf_register a
  exact hopb h

theorem targetOf_res (a : BitVec 14) (h : a.toNat = 0x01C) : targetOf a = .res := by
  obtain ⟨-, -, -, -, -, -, -, hres⟩ := targetOf_register a
  exact hres h

/-- The word number of an aligned offset of a buffer of 4096 bytes from `base` on. -/
theorem exists_bufWord {base a : Nat} (hbase : base % 4 = 0) (ha : a % 4 = 0) (h1 : base ≤ a) (h2 : a < base + 4096) :
    ∃ k : Fin 1024, a = base + 4 * k.val :=
  ⟨⟨(a - base) / 4, by omega⟩, by simp only []; omega⟩

/-- The step of a read outside the table windows while BUSY = 0. -/
theorem step_of_idleRead {s : State} {rest : List Event} {a : Nat} (h : hostReads s rest a) (hb : s.busy = false)
    {τ : Target} (hτ : ∀ x : BitVec 14, x.toNat = a → targetOf x = τ) (hw : isTableWindow τ = false := by rfl) :
    step s = .next (returned s rest (readTarget s τ)) :=
  step_of_hostReads h hτ (readIsDraw_of_idle hb hw)

/-- The step of a read of a buffer while BUSY = 0 (R62). -/
theorem step_of_bufferRead {s : State} {rest : List Event} {a : Nat} (h : hostReads s rest a) (hb : s.busy = false)
    (h1 : 0x1000 ≤ a) (h2 : a < 0x3000) : step s = .next (returned s rest (memWord s a)) := by
  have ⟨_, _, _, _, _, haligned⟩ := h
  by_cases hin : a < 0x2000
  · obtain ⟨k, rfl⟩ := exists_bufWord (base := 0x1000) rfl haligned h1 (by omega)
    exact step_of_idleRead h hb fun x hx => targetOf_inBuf x k hx
  · obtain ⟨k, rfl⟩ := exists_bufWord (base := 0x2000) rfl haligned (by omega) (by omega)
    exact step_of_idleRead h hb fun x hx => targetOf_outBuf x k hx

/-- The step of a write to a word of IN_BUF while BUSY = 0 (R65). -/
theorem step_of_inBufWrite {s : State} {rest : List Event} {a : Nat} {v : Word} (h : hostWrites s rest a v)
    (hb : s.busy = false) (h1 : 0x1000 ≤ a) (h2 : a < 0x2000) :
    step s = .next (respondDraw (storeWord a v { s with agenda := rest })) := by
  have ⟨_, _, _, _, _, haligned, _⟩ := h
  obtain ⟨k, rfl⟩ := exists_bufWord (base := 0x1000) rfl haligned h1 (by omega)
  exact step_of_acceptedWrite h (fun x hx => targetOf_inBuf x k hx) (.inl hb)

end Sys2Proof.Claims
end

section
/-! PROOF. The statements about accesses while BUSY = 0 (20_memory.md R62, R64, R65; 10_state.md R20). -/

namespace Sys2Proof.Claims

open Sys2Proof.Machine

/-- Settles O52: the map gives the target of each offset, and outside the table windows its word is what is read. -/
theorem idleReadsReturnTheMappedWord : Obligations.IdleReadsReturnTheMappedWord := by
  intro s rest a h hb
  refine ⟨?_, ?_, ?_, ?_, ?_, ?_, ?_, ?_, ?_, ?_, fun ha => ?_, fun ha => ?_⟩
  · rintro rfl
    exact step_of_idleRead h hb targetOf_cmd
  · rintro rfl
    exact step_of_idleRead h hb targetOf_status
  · rintro rfl
    exact step_of_idleRead h hb targetOf_len
  · rintro rfl
    exact step_of_idleRead h hb targetOf_outLen
  · rintro rfl
    exact step_of_idleRead h hb targetOf_opa
  · rintro rfl
    exact step_of_idleRead h hb targetOf_opb
  · rintro rfl
    exact step_of_idleRead h hb targetOf_res
  · rintro k rfl
    exact step_of_idleRead h hb fun x hx => targetOf_key x k hx
  · rintro k rfl
    exact step_of_idleRead h hb fun x hx => targetOf_state x k hx
  · rintro i rfl
    exact step_of_idleRead h hb fun x hx => targetOf_sched x i hx
  · exact step_of_bufferRead h hb ha.1 ha.2
  · exact step_of_idleRead h hb fun x hx => targetOf_reserved x (hx ▸ ha)

/-- Settles O53: a plain register stores the word, and the read-only and reserved targets take no write. -/
theorem idleWritesStoreOrAreIgnored : Obligations.IdleWritesStoreOrAreIgnored := by
  intro s rest a v h hb
  refine ⟨?_, ?_, ?_, ?_, step_of_ignoredWrite h⟩
  · rintro rfl
    exact step_of_acceptedWrite h targetOf_len (.inl hb)
  · rintro rfl
    exact step_of_acceptedWrite h targetOf_opa (.inl hb)
  · rintro rfl
    exact step_of_acceptedWrite h targetOf_opb (.inl hb)
  · rintro k rfl
    refine ⟨_, step_of_acceptedWrite h (fun x hx => targetOf_state x k hx) (.inl hb), rfl, fun j => ?_⟩
    simp [writeTarget, Vector.getElem_set, Fin.ext_iff, eq_comm]

/-- Settles O54: lane `j` of the word lands at the offset `+ j`, and the lanes make up the word. -/
theorem inputWordsAreBigEndian : Obligations.InputWordsAreBigEndian := by
  intro s rest a v h hb h1 h2
  obtain ⟨bytes, others⟩ := memByte_storeWord a v { s with agenda := rest }
  exact ⟨_, step_of_inBufWrite h hb h1 h2, rfl, bytes 0 (by decide), bytes 1 (by decide), bytes 2 (by decide),
    bytes 3 (by decide), memWord_storeWord a v { s with agenda := rest }, others⟩

end Sys2Proof.Claims
end

section
/-! SUPPORT. STATUS bit by bit (10_state.md R31), and the window parameter through every move (00_scope.md R7). -/

namespace Sys2Proof.Machine

/-- STATUS is its flags, appended one by one to the completion code (R31). -/
theorem statusWord_eq_concat (s : State) : statusWord s =
    ((((((((0#20 ++ errNumber s.errCode).concat false).concat s.schedValid).concat (keyValid s)).concat
      s.sboxReady).concat s.overrun).concat (errFlag s)).concat s.done).concat s.busy := rfl

/-- Bits 7:0 of STATUS are the flags (R31). -/
theorem statusWord_getLsbD (s : State) : (statusWord s).getLsbD 0 = s.busy ∧ (statusWord s).getLsbD 1 = s.done ∧
    (statusWord s).getLsbD 2 = errFlag s ∧ (statusWord s).getLsbD 3 = s.overrun ∧
    (statusWord s).getLsbD 4 = s.sboxReady ∧ (statusWord s).getLsbD 5 = keyValid s ∧
    (statusWord s).getLsbD 6 = s.schedValid ∧ (statusWord s).getLsbD 7 = false := by
  simp only [statusWord_eq_concat, BitVec.getLsbD_concat_zero, BitVec.getLsbD_concat_succ, and_self]

theorem toNat_concat_div_two {w : Nat} (x : BitVec w) (b : Bool) : (x.concat b).toNat / 2 = x.toNat := by
  rw [BitVec.toNat_concat]
  have := b.toNat_lt
  omega

/-- Above the flags STATUS is the completion code (R31, R39). -/
theorem statusWord_toNat_div (s : State) : (statusWord s).toNat / 256 = (errNumber s.errCode).toNat := by
  calc (statusWord s).toNat / 256
      = (statusWord s).toNat / 2 / 2 / 2 / 2 / 2 / 2 / 2 / 2 := by simp only [Nat.div_div_eq_div_mul]
    _ = (0#20 ++ errNumber s.errCode).toNat := by simp only [statusWord_eq_concat, toNat_concat_div_two]
    _ = (errNumber s.errCode).toNat := by rw [BitVec.toNat_append]; simp

/-! ## The window parameter -/

@[simp] theorem writeTarget_unpadWindow (v : Word) (s : State) (τ : Target) :
    (writeTarget v s τ).unpadWindow = s.unpadWindow := by cases τ <;> simp [writeTarget]

theorem Served.unpadWindow_kept {r : Request} {s t : State} (h : Served r s t) : t.unpadWindow = s.unpadWindow := by
  cases h <;> simp

theorem Completion.unpadWindow_kept {i : Instr} {s t : State} (h : Completion i s t) :
    t.unpadWindow = s.unpadWindow := by
  cases h <;> rfl

theorem unpadWindow_of_step {s t : State} (h : step s = .next t) : t.unpadWindow = s.unpadWindow := by
  cases step_move h with
  | runs rest i t he hr hb hd hx => exact (exec_completion hx).unpadWindow_kept
  | host r rest ha => exact (hostAccess_served r _).unpadWindow_kept
  | _ => rfl

end Sys2Proof.Machine
end

section
/-! PROOF. The statements about STATUS, the interrupt output and the window parameter (10_state.md R31, 60_exceptions.md
R257, 00_scope.md R7). -/

namespace Sys2Proof.Claims

open Sys2Proof.Machine

/-- Settles O45: bit by bit below bit 8, and above it the number of the completion code. -/
theorem statusFieldsAreInPlace : Obligations.StatusFieldsAreInPlace := by
  intro s
  obtain ⟨h0, h1, h2, h3, h4, h5, h6, h7⟩ := statusWord_getLsbD s
  have herr : errFlag s = decide (s.errCode ≠ .ok) := by rw [Bool.eq_iff_iff, errFlag_iff, decide_eq_true_iff]
  refine ⟨h0, h1, h2.trans herr, h3, h4, h5, h6, h7, ?_⟩
  rw [statusWord_toNat_div]
  cases s.errCode <;> decide

/-- Settles O47: bit 0 of CTRL is IRQ_EN, and bit 1 of STATUS is DONE. -/
theorem interruptIsEnableAndDone : Obligations.InterruptIsEnableAndDone := by
  intro s
  obtain ⟨-, hdone, -⟩ := statusWord_getLsbD s
  have hen : (ctrlWord s).getLsbD 0 = s.irqEn := by cases h : s.irqEn <;> simp [ctrlWord_eq, h]
  rw [hdone, hen, irq]

/-- Settles O58: reset keeps the parameter, and neither an access nor a completion writes it. -/
theorem unpadWindowIsFixed : Obligations.UnpadWindowIsFixed := ⟨rfl, fun _ _ h => unpadWindow_of_step h⟩

end Sys2Proof.Claims
end

section
/-! PROOF. The statements about the reset event and about the engine's turn (70_reset_and_hazards.md R280, R281,
60_exceptions.md R250, 30_encoding.md R98). -/

namespace Sys2Proof.Claims

open Sys2Proof.Machine

/-- Settles O2: the registers are those of the reset state, and what nothing wrote since is a free value of the new
epoch. -/
theorem resetEventRestoresResetValues : Obligations.ResetEventRestoresResetValues := by
  intro s rest ha
  have hstatus : statusWord (resetEvent { s with agenda := rest }) = 0#32 :=
    statusWord_eq_zero rfl rfl rfl rfl rfl rfl rfl
  have hctrl : ctrlWord (resetEvent { s with agenda := rest }) = 0#32 := ctrlWord_eq _
  refine ⟨_, step_of_reset ha, rfl, hstatus, hctrl, rfl, rfl, rfl, rfl, rfl, fun k => ?_, rfl, rfl, rfl, rfl,
    fun i => ?_, fun x => ⟨rfl, rfl⟩, fun a => rfl⟩
  · match k with
    | 0 | 1 | 2 | 3 => exact ⟨rfl, rfl⟩
  · exact Vector.getElem_ofFn i.isLt

/-- Settles O33: with the tables generated and BUSY = 1 the turn is the command step. -/
theorem stepRunsTheDecodedCommand : Obligations.StepRunsTheDecodedCommand := by
  intro s rest i ht hr hb hd
  rw [step_of_engineTurn ht, engineStep, if_pos hr, if_pos hb, commandStep]
  simp only [hd]

/-- Settles O34: with the tables generated and BUSY = 0 the turn has no command to run. -/
theorem engineWaitsForACommand : Obligations.EngineWaitsForACommand := by
  intro s rest ht hr hb
  rw [step_of_engineTurn ht, engineStep, if_pos hr, if_neg (by simp [hb])]

/-- Settles O35: the placed word is pending, with the tables generated and the engine next, so its step is the command's
(O33). -/
theorem placedWordRunsNext : Obligations.PlacedWordRunsNext := by
  intro s w i hw hd
  have hready : (s.withFetchWord 32 w).sboxReady = true := by
    cases hr : s.sboxReady <;> simp [State.withFetchWord, placeCommand, hr]
  have hcmd : decode (s.withFetchWord 32 w).cmd = .ok i := by
    show decode (BitVec.ofNat 32 (w % 2 ^ 32)) = .ok i
    rwa [Nat.mod_eq_of_lt hw]
  exact stepRunsTheDecodedCommand (s.withFetchWord 32 w) s.agenda i (.inr rfl) hready rfl hcmd

end Sys2Proof.Claims
end
